-- ==== Sys2Proof/Word.lean ====
section
/-! DEFINITION. The widths of the PSG core (spec/00_scope.md R10, R14): bytes, the 5-bit register address, the 16-bit
host command word, and the index types of channels and timers. -/

namespace Sys2Proof

/-- A data byte, `DATA_W` = 8 bits (R10). -/
abbrev Byte := BitVec 8

/-- A register address, `ADDR_W` = 5 bits (R10). -/
abbrev Addr := BitVec 5

/-- A host command word, 16 bits (spec/30_encoding.md R301). -/
abbrev Hcw := BitVec 16

/-- A channel index, 0..3 (R10, `NUM_CHANNELS`). -/
abbrev Channel := Fin 4

/-- A timer index, 0..2 (R10, `NUM_TIMERS`). -/
abbrev TimerIx := Fin 3

end Sys2Proof
end

