-- ==== Sys2Proof/Syntax.lean ====
section
/-! DEFINITION. The instructions: one constructor for each row of spec/opcode_table.json (spec/30_encoding.md R308). -/

namespace Sys2Proof

/-- A host operation of the block, as the rows of the opcode table have it. An unmapped write carries its whole register
address (spec/41_channel_writes.md R460); `WellFormed` says which addresses belong to which row. -/
inductive Instr where
  /-- `WR_FREQ0 v`: data byte for timer 0 (spec/40_timer_writes.md R410). -/
  | wrFreq0 (v : Byte)
  /-- `WR_FREQ1 v`: data byte for timer 1 (R410). -/
  | wrFreq1 (v : Byte)
  /-- `WR_FREQ2 v`: data byte for timer 2 (R410). -/
  | wrFreq2 (v : Byte)
  /-- `WR_TCTL v`: timer control byte (R400). -/
  | wrTctl (v : Byte)
  /-- A write to `a` in 0x04–0x07 (spec/41_channel_writes.md R460). -/
  | wrUnmapped0407 (a : Addr) (v : Byte)
  /-- A write to `a` in 0x08–0x0F (R460). -/
  | wrUnmapped080F (a : Addr) (v : Byte)
  /-- `WR_VOLPAN c, v` (R450). -/
  | wrVolPan (c : Channel) (v : Byte)
  /-- `WR_WAVE c, v` (R455). -/
  | wrWave (c : Channel) (v : Byte)
  /-- A write to `a` in 0x18–0x1F (R460). -/
  | wrUnmapped181F (a : Addr) (v : Byte)
  /-- `TICK` (spec/42_sample_tick.md R500). -/
  | tick
  /-- `RESET` (spec/70_reset_and_hazards.md R800). -/
  | reset
  /-- `PEEK a` (spec/41_channel_writes.md R470). -/
  | peek (a : Addr)
deriving DecidableEq, Repr

/-- `WR_FREQt v`: "one instruction with three encodings" (spec/40_timer_writes.md R410). -/
def Instr.wrFreq (t : TimerIx) (v : Byte) : Instr :=
  match t with
  | 0 => .wrFreq0 v
  | 1 => .wrFreq1 v
  | 2 => .wrFreq2 v

/-- The instruction is a register write: one of the WRITE rows of R308. -/
def Instr.isWrite : Instr → Bool
  | .wrFreq0 _ | .wrFreq1 _ | .wrFreq2 _ | .wrTctl _ => true
  | .wrUnmapped0407 _ _ | .wrUnmapped080F _ _ | .wrUnmapped181F _ _ => true
  | .wrVolPan _ _ | .wrWave _ _ => true
  | .tick | .reset | .peek _ => false

end Sys2Proof
end

