-- ==== Sys2Proof/WellFormed.lean ====
section
/-! DEFINITION. Which instructions are well formed: an unmapped write's address lies in its own row's range
(spec/30_encoding.md R308, spec/41_channel_writes.md R460). Every other operand is bounded by its type. -/

namespace Sys2Proof

/-- The address range of each unmapped-write row; every other instruction is well formed as it stands. -/
def Instr.wellFormed : Instr → Bool
  | .wrUnmapped0407 a _ => decide (0x04 ≤ a.toNat ∧ a.toNat ≤ 0x07)
  | .wrUnmapped080F a _ => decide (0x08 ≤ a.toNat ∧ a.toNat ≤ 0x0F)
  | .wrUnmapped181F a _ => decide (0x18 ≤ a.toNat ∧ a.toNat ≤ 0x1F)
  | .wrFreq0 _ | .wrFreq1 _ | .wrFreq2 _ | .wrTctl _ => true
  | .wrVolPan _ _ | .wrWave _ _ => true
  | .tick | .reset | .peek _ => true

/-- An instruction that some word of the HCW space encodes. -/
abbrev Instr.WellFormed (i : Instr) : Prop := i.wellFormed = true

end Sys2Proof
end

