-- ==== Sys2Proof/Decode.lean ====
section
/-! DEFINITION. The decoder and the encoder of host command words (spec/30_encoding.md R300–R308, R320). The decoder is
total on 16-bit words and rejects each kind of reserved word by name. -/

namespace Sys2Proof

/-- Why a host command word is reserved (R320). -/
inductive DecodeError where
  /-- `OP` is 100–111. -/
  | reservedOp
  /-- `OP` is TICK and `[12:0] ≠ 0`. -/
  | tickOperand
  /-- `OP` is RESET and `[12:0] ≠ 0`. -/
  | resetOperand
  /-- `OP` is PEEK and `[7:0] ≠ 0`. -/
  | peekOperand
deriving DecidableEq, Repr

/-- `OP`, bits `[15:13]` (R301). -/
def opField (w : Hcw) : BitVec 3 := w.extractLsb' 13 3

/-- `A`, bits `[12:8]` (R301, R302). -/
def addrField (w : Hcw) : Addr := w.extractLsb' 8 5

/-- `D`, bits `[7:0]` (R301, R302). -/
def dataField (w : Hcw) : Byte := w.extractLsb' 0 8

/-- The bits `[12:0]` that TICK and RESET leave zero (R303, R304). -/
def operandField (w : Hcw) : BitVec 13 := w.extractLsb' 0 13

/-- The channel field of a volume/pan or waveform address, `a[1:0]` (R307). -/
def channelField (a : Addr) : Channel := ⟨(a.extractLsb' 0 2).toNat, (a.extractLsb' 0 2).isLt⟩

/-- The dispatch of a register write by address (R300): every address and every byte is some instruction. -/
def decodeWrite (a : Addr) (v : Byte) : Instr :=
  if a.toNat = 0x00 then .wrFreq0 v
  else if a.toNat = 0x01 then .wrFreq1 v
  else if a.toNat = 0x02 then .wrFreq2 v
  else if a.toNat = 0x03 then .wrTctl v
  else if a.toNat ≤ 0x07 then .wrUnmapped0407 a v
  else if a.toNat ≤ 0x0F then .wrUnmapped080F a v
  else if a.toNat ≤ 0x13 then .wrVolPan (channelField a) v
  else if a.toNat ≤ 0x17 then .wrWave (channelField a) v
  else .wrUnmapped181F a v

/-- The operation a host command word is (R301–R305), or why it is reserved (R320). -/
def decode (w : Hcw) : Except DecodeError Instr :=
  if opField w = 0b000#3 then .ok (decodeWrite (addrField w) (dataField w))
  else if opField w = 0b001#3 then
    if operandField w = 0 then .ok .tick else .error .tickOperand
  else if opField w = 0b010#3 then
    if operandField w = 0 then .ok .reset else .error .resetOperand
  else if opField w = 0b011#3 then
    if dataField w = 0 then .ok (.peek (addrField w)) else .error .peekOperand
  else .error .reservedOp

/-- The instruction the decoder reads from a word numbered as spec/opcode_table.json numbers it. An instruction is one
16-bit word, so the bits of `w` from `nbits` on are zero. -/
def decodeTableWord (nbits w : Nat) : Option Instr :=
  if nbits ≤ 16 then
    match decode (BitVec.ofNat 16 (w % 2 ^ nbits)) with
    | .ok i => some i
    | .error _ => none
  else none

/-- The address of `volpan[c]`, `0x10 + c` (R307, spec/10_state.md R116). -/
def volPanAddr (c : Channel) : Addr := BitVec.ofNat 5 (0x10 + c.val)

/-- The address of `wave[c]`, `0x14 + c` (R307, R116). -/
def waveAddr (c : Channel) : Addr := BitVec.ofNat 5 (0x14 + c.val)

/-- The address of timer `t`'s data register (R116). -/
def freqAddr (t : TimerIx) : Addr := BitVec.ofNat 5 t.val

/-- The address of the timer control register (R116). -/
def tctlAddr : Addr := 0x03#5

/-- The WRITE word `000AAAAADDDDDDDD` (R302). -/
def encodeWrite (a : Addr) (v : Byte) : Hcw := 0b000#3 ++ a ++ v

/-- The word of an instruction, from the encodings of R302–R308. -/
def encode : Instr → Hcw
  | .wrFreq0 v => encodeWrite 0x00 v
  | .wrFreq1 v => encodeWrite 0x01 v
  | .wrFreq2 v => encodeWrite 0x02 v
  | .wrTctl v => encodeWrite 0x03 v
  | .wrUnmapped0407 a v => encodeWrite a v
  | .wrUnmapped080F a v => encodeWrite a v
  | .wrVolPan c v => encodeWrite (volPanAddr c) v
  | .wrWave c v => encodeWrite (waveAddr c) v
  | .wrUnmapped181F a v => encodeWrite a v
  | .tick => 0x2000
  | .reset => 0x4000
  | .peek a => 0b011#3 ++ a ++ 0x00#8

/-- A row of the opcode map (R308): a word belongs to the row when its bits under `mask` are `pattern`. -/
structure OpcodeRow where
  mnemonic : String
  pattern : Hcw
  mask : Hcw
deriving DecidableEq, Repr

/-- The opcode map of R308, row by row. -/
def opcodeRows : List OpcodeRow :=
  [⟨"WR_FREQ0", 0x0000, 0xFF00⟩, ⟨"WR_FREQ1", 0x0100, 0xFF00⟩, ⟨"WR_FREQ2", 0x0200, 0xFF00⟩, ⟨"WR_TCTL", 0x0300, 0xFF00⟩,
   ⟨"WR_UNMAPPED_04_07", 0x0400, 0xFC00⟩, ⟨"WR_UNMAPPED_08_0F", 0x0800, 0xF800⟩,
   ⟨"WR_VOLPAN", 0x1000, 0xFC00⟩, ⟨"WR_WAVE", 0x1400, 0xFC00⟩, ⟨"WR_UNMAPPED_18_1F", 0x1800, 0xF800⟩,
   ⟨"TICK", 0x2000, 0xFFFF⟩, ⟨"RESET", 0x4000, 0xFFFF⟩, ⟨"PEEK", 0x6000, 0xE0FF⟩]

/-- The word belongs to the row. -/
def OpcodeRow.covers (r : OpcodeRow) (w : Hcw) : Bool := w &&& r.mask == r.pattern

/-- The mnemonic of an instruction's row (R308). -/
def Instr.mnemonic : Instr → String
  | .wrFreq0 _ => "WR_FREQ0"
  | .wrFreq1 _ => "WR_FREQ1"
  | .wrFreq2 _ => "WR_FREQ2"
  | .wrTctl _ => "WR_TCTL"
  | .wrUnmapped0407 _ _ => "WR_UNMAPPED_04_07"
  | .wrUnmapped080F _ _ => "WR_UNMAPPED_08_0F"
  | .wrVolPan _ _ => "WR_VOLPAN"
  | .wrWave _ _ => "WR_WAVE"
  | .wrUnmapped181F _ _ => "WR_UNMAPPED_18_1F"
  | .tick => "TICK"
  | .reset => "RESET"
  | .peek _ => "PEEK"

end Sys2Proof
end

