-- ==== Sys2Proof/Config.lean ====
section
/-! DEFINITION. What one implementation fixes: the configuration of a run (spec/00_scope.md R11) and the open parameters
`W` and `NoiseGen` (R12) as constants without a body, so that nothing can be proved of their values. -/

namespace Sys2Proof

/-- A channel's signal value: `W_bounded` of R12, `W(w, b) ∈ {−1, 0, +1}`, said by the type. -/
inductive Signal where
  | minus
  | zero
  | plus
deriving DecidableEq, Repr, Inhabited

/-- Which instance of `W` and `NoiseGen` a run means: the unspecified one of the hardware, or the reference instances
`W_ref` and `NoiseGen_ref` of the spec's test vectors (R12). -/
inductive Tables where
  | unspecified
  | reference
deriving DecidableEq, Repr, Inhabited

/-- The configuration parameters of a run (R11). They are natural numbers, so that an invalid configuration
(spec/44_host_protocol.md R611) can be given and refused. -/
structure Config where
  /-- `chipClock`, in Hz. -/
  chipClock : Nat
  /-- `clockSel`; 0, 1 and 2 are legal. -/
  clockSel : Nat
  /-- `noiseRate`, read only when `clockSel` is 2. -/
  noiseRate : Nat
  /-- The instance of the open parameters. -/
  tables : Tables
deriving DecidableEq, Repr

/-- The defaults of R11: 3,000,000 Hz and `clockSel` 0. The spec states no default `noiseRate`; 1 is a DESIGN CHOICE that
no rule reads while `clockSel` is 0 (log entry 5). -/
def Config.default : Config where
  chipClock := 3000000
  clockSel := 0
  noiseRate := 1
  tables := .unspecified

/-- `W` of R12, an open parameter: the value of a channel by its waveform selector and its carrier bit (log entry 7). -/
opaque Config.freeWave : Byte → Bool → Signal

/-- `NoiseGen.seed` of R12, an open parameter (log entry 8). -/
opaque Config.freeNoiseSeed : Nat

/-- `NoiseGen.step` of R12, an open parameter (log entry 8). -/
opaque Config.freeNoiseStep : Nat → Nat

/-- `NoiseGen.outBit` of R12, an open parameter (log entry 8). -/
opaque Config.freeNoiseOutBit : Nat → Bool

/-- What the 32-bit divider holds when it is set to a `noiseClock` of 2^32 or more: the spec states no value
(log entry 10, DESIGN CHOICE). -/
opaque Config.freeWideDivider : Nat → BitVec 32

end Sys2Proof
end

