-- ==== Sys2Proof/Machine/Configuration.lean ====
section
/-! DEFINITION. What the machine computes from its configuration: its validity (spec/44_host_protocol.md R611), the noise
divider period (R610), and the instances of `W` and `NoiseGen` it runs with (spec/00_scope.md R12). -/

namespace Sys2Proof

/-- R611: `clockSel` is 0, 1 or 2, `noiseRate` is not 0 when it is used, and `chipClock` is not 0. -/
def Config.valid (cfg : Config) : Bool :=
  decide (cfg.clockSel ≤ 2) && !(cfg.clockSel == 2 && cfg.noiseRate == 0) && cfg.chipClock != 0

/-- The divider base of R610. An invalid `clockSel` is refused before this is used (R611); it reads as `noiseRate`
(log entry 23). -/
def Config.base (cfg : Config) : Nat :=
  if cfg.clockSel = 0 then 50
  else if cfg.clockSel = 1 then 60
  else cfg.noiseRate

/-- `noiseClock` of R610: floor divisions in the written order, at least 1. For the invalid `clockSel = 2` with
`noiseRate = 0` R611 says that the formula would divide by zero and gives no value; `x / 0` is 0 in Lean, so the value there
is 1. That value, and the value for an invalid `clockSel`, are the model's choice, and every operation is refused under
either configuration (DESIGN CHOICE, safe: log entry 23). -/
def Config.noiseClock (cfg : Config) : Nat := max 1 (cfg.chipClock / cfg.base / 8)

/-- What the 32-bit divider holds when it is set to `noiseClock` (spec/10_state.md R114, spec/42_sample_tick.md R510). The
spec states no value for a `noiseClock` that does not fit 32 bits: a free value (log entry 10). -/
def Config.dividerStart (cfg : Config) : BitVec 32 :=
  if cfg.noiseClock < 2 ^ 32 then BitVec.ofNat 32 cfg.noiseClock else Config.freeWideDivider cfg.noiseClock

/-- `W_ref` (spec/00_scope.md R12, spec/43_synthesis_readout.md R551). -/
def refWave (_wave : Byte) (bit : Bool) : Signal := if bit then .plus else .zero

/-- `NoiseGen_ref.step` on its 15-bit state: shift right, feedback `s[0] xor s[1]` into bit 14
(spec/42_sample_tick.md R521). -/
def lfsrStep (s : BitVec 15) : BitVec 15 :=
  (s >>> 1) ||| ((BitVec.ofBool (s.getLsbD 0 ^^ s.getLsbD 1)).setWidth 15 <<< 14)

/-- `NoiseGen_ref.step` on the model's noise state, whose low 15 bits are the register. -/
def refNoiseStep (n : Nat) : Nat := (lfsrStep (BitVec.ofNat 15 n)).toNat

/-- `NoiseGen_ref.seed` (R521). -/
def refNoiseSeed : Nat := 0x0001

/-- `NoiseGen_ref.outBit`, bit 0 of the register (R521). -/
def refNoiseOutBit (n : Nat) : Bool := n.testBit 0

/-- `W` of the run (spec/43_synthesis_readout.md R550). -/
def Config.wave (cfg : Config) : Byte → Bool → Signal :=
  match cfg.tables with
  | .unspecified => Config.freeWave
  | .reference => refWave

/-- `NoiseGen.seed` of the run (spec/42_sample_tick.md R520). -/
def Config.noiseSeed (cfg : Config) : Nat :=
  match cfg.tables with
  | .unspecified => Config.freeNoiseSeed
  | .reference => refNoiseSeed

/-- `NoiseGen.step` of the run (R520). -/
def Config.noiseStep (cfg : Config) : Nat → Nat :=
  match cfg.tables with
  | .unspecified => Config.freeNoiseStep
  | .reference => refNoiseStep

/-- `NoiseGen.outBit` of the run (R520). -/
def Config.noiseOutBit (cfg : Config) : Nat → Bool :=
  match cfg.tables with
  | .unspecified => Config.freeNoiseOutBit
  | .reference => refNoiseOutBit

end Sys2Proof
end

