-- ==== Sys2Proof/Machine/Block.lean ====
section
/-! DEFINITION. The block's state record (spec/10_state.md R100) and its reset values (R130). -/

namespace Sys2Proof.Machine

open Sys2Proof

/-- The closed set of refusal reasons (spec/10_state.md R140). Each is safe: the model stops where the spec gives the
operation no meaning. -/
inductive RefusalReason where
  /-- A control write with SEL = 3 (spec/40_timer_writes.md R401). Raised by `Block.ctrlWrite`. -/
  | ctrlSelect3
  /-- A control write whose MODEBITS are not 0x34 (R401). Raised by `Block.ctrlWrite`. -/
  | ctrlMode (v : Byte)
  /-- A data write to timer `t` while `ctrl[5:0] ≠ 0x34` (R411). Raised by `Block.dataWrite`. -/
  | dataBeforeCtrl (t : TimerIx)
  /-- A host operation outside the port widths (spec/20_memory.md R203, spec/41_channel_writes.md R480; log entry 21).
  Raised by the request it expands to. -/
  | portRange
  /-- A reserved host command word (spec/30_encoding.md R320). Raised by `step`. -/
  | reservedCommand
  /-- An invalid configuration (spec/44_host_protocol.md R611). Raised by every operation. -/
  | badConfig
  /-- A named operation with a channel index out of range (R600). Raised by a named request. -/
  | channelRange
deriving DecidableEq, Repr

/-- One interval timer (R100, R107–R113). -/
structure Timer where
  /-- The control byte last accepted (R107). -/
  ctrl : Byte
  /-- The reload value (R108). -/
  reload : BitVec 16
  /-- Ticks until the next toggle (R109). -/
  count : BitVec 16
  /-- The pending low byte of a two-byte load (R110). -/
  latch : Byte
  /-- The next data byte is the high byte (R111). -/
  hiNext : Bool
  /-- The timer is armed (R112). -/
  running : Bool
  /-- The square-wave output bit (R113). -/
  out : Bool
deriving DecidableEq, Repr

/-- The block's state (R100). -/
structure Block where
  /-- The register mirror (R103). -/
  mirror : Vector Byte 32
  /-- Volume/pan of each channel (R104). -/
  volpan : Vector Byte 4
  /-- Waveform selector of each channel (R105). -/
  wave : Vector Byte 4
  /-- The interval timer bank (R106). -/
  timer : Vector Timer 3
  /-- The noise clock divider (R114). -/
  noiseTimer : BitVec 32
  /-- The state of the noise generator (R115). -/
  noise : Nat
  /-- The model-only refusal mark (R140). -/
  refused : Option RefusalReason
deriving DecidableEq, Repr

/-- A timer at reset (R130): every field 0 or false. -/
def Timer.reset : Timer where
  ctrl := 0
  reload := 0
  count := 0
  latch := 0
  hiNext := false
  running := false
  out := false

/-- The block at reset (R130, spec/70_reset_and_hazards.md R800, R801), with no refusal mark. -/
def Block.reset (cfg : Config) : Block where
  mirror := Vector.replicate 32 0
  volpan := Vector.replicate 4 0
  wave := Vector.replicate 4 0
  timer := Vector.replicate 3 Timer.reset
  noiseTimer := cfg.dividerStart
  noise := cfg.noiseSeed
  refused := none

end Sys2Proof.Machine
end

