-- ==== Sys2Proof/Machine/State.lean ====
section
/-! DEFINITION. The state of the machine: the block, the configuration of the run, and the host's side of the interface
(the operations not yet applied and what the block has delivered). -/

namespace Sys2Proof.Machine

open Sys2Proof

/-- One entry of the host's list of operations (spec/10_state.md R102): a host command word, or an operation that its range
check turns away (spec/44_host_protocol.md R600, spec/41_channel_writes.md R480, spec/20_memory.md R203; log entries 19
and 21). -/
inductive Request where
  | word (w : Hcw)
  | refuse (r : RefusalReason)
deriving DecidableEq, Repr

/-- What one TICK emits (spec/43_synthesis_readout.md R565). -/
structure OutputRecord where
  /-- Left audio sample, signed 16-bit (R560). -/
  outL : BitVec 16
  /-- Right audio sample, signed 16-bit (R560). -/
  outR : BitVec 16
  /-- Left contribution of each channel (R552). -/
  chanL : Vector Int 4
  /-- Right contribution of each channel (R552). -/
  chanR : Vector Int 4
  /-- Oscilloscope sample of each channel (R561). -/
  osc : Vector Int 4
deriving DecidableEq, Repr

/-- What the block delivers to the host: a TICK's record (R565) or a PEEK's byte (spec/41_channel_writes.md R470). -/
inductive Emission where
  | record (r : OutputRecord)
  | byte (v : Byte)
deriving DecidableEq, Repr

/-- The state of the machine. -/
structure State where
  /-- The parameters of the run, which no operation writes (spec/10_state.md R121; log entry 5), a RESET neither (log
  entry 22). -/
  config : Config
  /-- The block's own state (R100). -/
  block : Block
  /-- The host's operations not yet applied, next first (R102; the model's own field, log entry 2). -/
  pending : List Request
  /-- How many operations have been applied, the analogue of a pc (R102; the model's own field, log entry 2). -/
  pos : Nat
  /-- What the block has delivered, oldest first (the model's own field, log entry 3). -/
  received : List Emission
deriving DecidableEq, Repr

/-- The block has no fault (spec/00_scope.md R16, spec/60_exceptions.md R700): a step never ends in one. -/
inductive Fault where
deriving DecidableEq, Repr

/-- Why a step has no meaning. -/
inductive Refusal where
  /-- An instruction without a meaning yet; raised by `exec` only; safe. -/
  | notModelled (mnemonic : String)
  /-- The refusal outcome of R16 and R140: the reason, and the state it leaves, whose mark is set. Raised by `conclude`
  for every operation that refuses and for every operation of a state already refused; safe. -/
  | raised (reason : RefusalReason) (left : State)
deriving DecidableEq, Repr

/-- The initial state for a configuration (spec/70_reset_and_hazards.md R801): the block as RESET leaves it, nothing
submitted and nothing delivered. -/
def State.init (cfg : Config) : State where
  config := cfg
  block := Block.reset cfg
  pending := []
  pos := 0
  received := []

/-- The machine right after reset at the default configuration (R801, spec/00_scope.md R11). -/
def State.reset : State := State.init Config.default

end Sys2Proof.Machine
end

