-- ==== Sys2Proof/Machine/Operands.lean ====
section
/-! DEFINITION. The operand forms: the fields of each register's data byte (spec/30_encoding.md R306, R307), the assembly
of a reload value, and the phase length it stands for (spec/42_sample_tick.md R503). -/

namespace Sys2Proof.Machine

open Sys2Proof

/-- `SEL`, bits `[7:6]` of a control byte (R306). -/
def ctrlSelect (v : Byte) : BitVec 2 := v.extractLsb' 6 2

/-- `MODEBITS`, bits `[5:0]` of a control byte (R306). -/
def modeBits (v : Byte) : BitVec 6 := v.extractLsb' 0 6

/-- The one legal `MODEBITS`: binary counting, both bytes, continuous square wave (spec/10_state.md R107). -/
def squareWaveMode : BitVec 6 := 0x34

/-- The timer a control byte selects; there is no timer 3 (spec/40_timer_writes.md R401). -/
def selectedTimer (v : Byte) : Option TimerIx :=
  if h : (ctrlSelect v).toNat < 3 then some ⟨(ctrlSelect v).toNat, h⟩ else none

/-- The control byte of timer `t`, `0x34 | (t << 6)` (R401). -/
def controlByte (t : TimerIx) : Byte := 0x34 ||| (BitVec.ofNat 8 t.val <<< 6)

/-- The left level `L`, bits `[7:4]` of a volume/pan byte (R306). -/
def leftLevel (v : Byte) : Nat := (v.extractLsb' 4 4).toNat

/-- The right level `R`, bits `[3:0]` of a volume/pan byte (R306). -/
def rightLevel (v : Byte) : Nat := (v.extractLsb' 0 4).toNat

/-- `reload = (high << 8) | latch` (R307). -/
def assembleReload (high latch : Byte) : BitVec 16 := high ++ latch

/-- The counting length `N`: a reload of 0 counts as 65536 (R307). -/
def countingLength (r : BitVec 16) : Nat := if r = 0 then 65536 else r.toNat

/-- The number of ticks of a phase that starts with output level `o` under reload `r` (spec/42_sample_tick.md R503). -/
def phaseLen (r : BitVec 16) (o : Bool) : Nat :=
  if o then (countingLength r + 1) / 2 else max 1 (countingLength r / 2)

/-- The number a channel's signal stands for (spec/43_synthesis_readout.md R550). -/
def signalValue : Signal → Int
  | .minus => -1
  | .zero => 0
  | .plus => 1

end Sys2Proof.Machine
end

