-- ==== Sys2Proof/Machine/Flags.lean ====
section
/-! DEFINITION. The status bits of a timer, `hiNext`, `running` and `out` (spec/10_state.md R117), and how each operation
of the timer bank sets them. The block has no condition codes. -/

namespace Sys2Proof.Machine

open Sys2Proof

/-- A control write: pointer at the low byte, stopped, output high (spec/40_timer_writes.md R400). -/
def Timer.flagsAfterControl (tm : Timer) : Timer :=
  { tm with hiNext := false, running := false, out := true }

/-- A low-byte write: the high byte is next (R411). -/
def Timer.flagsAfterLow (tm : Timer) : Timer := { tm with hiNext := true }

/-- A high-byte write: the low byte is next and the timer is armed (R412). -/
def Timer.flagsAfterHigh (tm : Timer) : Timer := { tm with hiNext := false, running := true }

/-- The end of a phase: the output flips (spec/42_sample_tick.md R502). -/
def Timer.flipOut (tm : Timer) : Timer := { tm with out := !tm.out }

end Sys2Proof.Machine
end

