-- ==== Sys2Proof/Machine/Ops.lean ====
section
/-! DEFINITION. The named operations over the block's registers, and the two outcomes of an operation: the next state, or
a refusal (spec/00_scope.md R15, R16). The block has no trap entry and no trap return (spec/60_exceptions.md R704, R705);
raising a refusal is the one shared operation that stands in their place. -/

namespace Sys2Proof.Machine

open Sys2Proof

/-- `mirror[a]` (spec/10_state.md R103). -/
def Block.mirrorAt (b : Block) (a : Addr) : Byte := b.mirror[a.toNat]'a.isLt

/-- `mirror[a] <- v` (spec/30_encoding.md R300). -/
def Block.setMirror (b : Block) (a : Addr) (v : Byte) : Block := { b with mirror := b.mirror.set a.toNat v a.isLt }

/-- `timer[t]` (spec/10_state.md R106). -/
def Block.timerAt (b : Block) (t : TimerIx) : Timer := b.timer[t.val]

/-- `timer[t] <- f(timer[t])`; the other timers are untouched. -/
def Block.modifyTimer (b : Block) (t : TimerIx) (f : Timer → Timer) : Block :=
  { b with timer := b.timer.set t.val (f (b.timerAt t)) }

/-- `volpan[c]` (R104). -/
def Block.volpanAt (b : Block) (c : Channel) : Byte := b.volpan[c.val]

/-- `volpan[c] <- v` (spec/41_channel_writes.md R450). -/
def Block.setVolpan (b : Block) (c : Channel) (v : Byte) : Block := { b with volpan := b.volpan.set c.val v }

/-- `wave[c]` (spec/10_state.md R105). -/
def Block.waveAt (b : Block) (c : Channel) : Byte := b.wave[c.val]

/-- `wave[c] <- v` (spec/41_channel_writes.md R455). -/
def Block.setWave (b : Block) (c : Channel) (v : Byte) : Block := { b with wave := b.wave.set c.val v }

/-- `raise Refused(r)` on the block: the mark is set, and a mark already set stays (spec/10_state.md R140; log entry 4). -/
def Block.raise (b : Block) (r : RefusalReason) : Block :=
  { b with refused := some (b.refused.getD r) }

/-- Apply a change of the block. -/
def State.onBlock (s : State) (f : Block → Block) : State := { s with block := f s.block }

/-- Deliver something to the host (spec/43_synthesis_readout.md R565, spec/41_channel_writes.md R470). -/
def State.emit (s : State) (e : Emission) : State := { s with received := s.received ++ [e] }

/-- `raise Refused(r)` (spec/00_scope.md R15). -/
def State.raise (s : State) (r : RefusalReason) : State := s.onBlock (·.raise r)

/-- The outcome of an operation that leaves `s`: the next state, or the refusal its mark names. The mark is sticky, so an
operation of a state already refused is refused whatever it does (R16; spec/10_state.md R140). -/
def conclude (s : State) : Host.Outcome State Fault Refusal :=
  match s.block.refused with
  | none => .next s
  | some r => .refused (.raised r s)

/-- Perform one host operation: under a valid configuration its effect, under an invalid one the refusal `BadConfig`
(spec/44_host_protocol.md R611). -/
def perform (s : State) (effect : State → State) : Host.Outcome State Fault Refusal :=
  if s.config.valid then conclude (effect s) else conclude (s.raise .badConfig)

/-- A register write: the mirror first, always, then the rule the address decodes to (spec/30_encoding.md R300). -/
def writeRegister (s : State) (a : Addr) (v : Byte) (rest : Block → Block) : Host.Outcome State Fault Refusal :=
  perform s (·.onBlock fun b => rest (b.setMirror a v))

/-- Take the next request off the host's list; the position moves by one (spec/10_state.md R102). -/
def State.advance (s : State) : State := { s with pending := s.pending.tail, pos := s.pos + 1 }

/-- The next request of the host's list, if any (R102). -/
def State.fetch (s : State) : Option Request := s.pending.head?

/-- Put a word where the next step fetches its request (log entry 2). -/
def State.placeWord (s : State) (w : Hcw) : State := { s with pending := .word w :: s.pending.tail }

end Sys2Proof.Machine
end

