-- ==== Sys2Proof/Machine/Channels.lean ====
section
/-! DEFINITION. The channel register writes, the writes to unmapped addresses, and the mirror read
(spec/41_channel_writes.md). -/

namespace Sys2Proof.Machine

open Sys2Proof

/-- `WR_VOLPAN c, v` (R450). -/
def execWrVolPan (c : Channel) (v : Byte) (s : State) : Host.Outcome State Fault Refusal :=
  writeRegister s (volPanAddr c) v (·.setVolpan c v)

/-- `WR_WAVE c, v` (R455). -/
def execWrWave (c : Channel) (v : Byte) (s : State) : Host.Outcome State Fault Refusal :=
  writeRegister s (waveAddr c) v (·.setWave c v)

/-- `WR_UNMAPPED_04_07 a, v`: the mirror only (R460). -/
def execWrUnmapped0407 (a : Addr) (v : Byte) (s : State) : Host.Outcome State Fault Refusal :=
  writeRegister s a v id

/-- `WR_UNMAPPED_08_0F a, v`: the mirror only (R460). -/
def execWrUnmapped080F (a : Addr) (v : Byte) (s : State) : Host.Outcome State Fault Refusal :=
  writeRegister s a v id

/-- `WR_UNMAPPED_18_1F a, v`: the mirror only (R460). -/
def execWrUnmapped181F (a : Addr) (v : Byte) (s : State) : Host.Outcome State Fault Refusal :=
  writeRegister s a v id

/-- `PEEK a`: deliver `mirror[a]`; the block does not change (R470). -/
def execPeek (a : Addr) (s : State) : Host.Outcome State Fault Refusal :=
  perform s fun s => s.emit (.byte (s.block.mirrorAt a))

end Sys2Proof.Machine
end

