-- ==== Sys2Proof/Machine/Reset.lean ====
section
/-! DEFINITION. `RESET` (spec/70_reset_and_hazards.md R800). -/

namespace Sys2Proof.Machine

open Sys2Proof

/-- `Reset` on the block: every field to its reset value, the refusal mark left alone (R800; spec/10_state.md R140). -/
def Block.doReset (cfg : Config) (b : Block) : Block := { Block.reset cfg with refused := b.refused }

/-- `RESET` (R800): it emits no record. It reads the configuration (spec/44_host_protocol.md R612) and keeps it: whether a
RESET may begin with another configuration is open (spec/00_scope.md R11), and one configuration across every RESET is the
model's choice (DESIGN CHOICE, unsafe: log entry 22). -/
def execReset (s : State) : Host.Outcome State Fault Refusal :=
  perform s fun s => s.onBlock (·.doReset s.config)

end Sys2Proof.Machine
end

