-- ==== Sys2Proof/Machine/Synthesis.lean ====
section
/-! DEFINITION. Synthesis and readout (spec/43_synthesis_readout.md): pure functions of the block after a tick's steps. -/

namespace Sys2Proof.Machine

open Sys2Proof

/-- The carrier bit of a channel: its timer's output for 0–2, the noise bit for 3 (R550). -/
def Block.carrier (cfg : Config) (b : Block) (c : Channel) : Bool :=
  if h : c.val < 3 then (b.timerAt ⟨c.val, h⟩).out else cfg.noiseOutBit b.noise

/-- The channel signal `s_c = W(wave[c], bit_c)` (R550). -/
def Block.signal (cfg : Config) (b : Block) (c : Channel) : Int :=
  signalValue (cfg.wave (b.waveAt c) (b.carrier cfg c))

/-- `chanL_c = s_c * L_c` (R552). -/
def Block.chanL (cfg : Config) (b : Block) (c : Channel) : Int := b.signal cfg c * (leftLevel (b.volpanAt c) : Int)

/-- `chanR_c = s_c * R_c` (R552). -/
def Block.chanR (cfg : Config) (b : Block) (c : Channel) : Int := b.signal cfg c * (rightLevel (b.volpanAt c) : Int)

/-- `mixL`, the exact sum over the four channels (R553). -/
def Block.mixL (cfg : Config) (b : Block) : Int := b.chanL cfg 0 + b.chanL cfg 1 + b.chanL cfg 2 + b.chanL cfg 3

/-- `mixR`, the exact sum over the four channels (R553). -/
def Block.mixR (cfg : Config) (b : Block) : Int := b.chanR cfg 0 + b.chanR cfg 1 + b.chanR cfg 2 + b.chanR cfg 3

/-- `osc_c = 512 * chanL_c + 512 * chanR_c` (R561). -/
def Block.osc (cfg : Config) (b : Block) (c : Channel) : Int := 512 * b.chanL cfg c + 512 * b.chanR cfg c

/-- An audio sample: the mix scaled by 128, as a signed 16-bit value (R560). It always fits, since a `Signal` is bounded. -/
def audioSample (mix : Int) : BitVec 16 := BitVec.ofInt 16 (128 * mix)

/-- The output record of a block (R565). -/
def Block.outputRecord (cfg : Config) (b : Block) : OutputRecord where
  outL := audioSample (b.mixL cfg)
  outR := audioSample (b.mixR cfg)
  chanL := #v[b.chanL cfg 0, b.chanL cfg 1, b.chanL cfg 2, b.chanL cfg 3]
  chanR := #v[b.chanR cfg 0, b.chanR cfg 1, b.chanR cfg 2, b.chanR cfg 3]
  osc := #v[b.osc cfg 0, b.osc cfg 1, b.osc cfg 2, b.osc cfg 3]

end Sys2Proof.Machine
end

