-- ==== Sys2Proof/Machine/Tick.lean ====
section
/-! DEFINITION. The per-sample tick (spec/42_sample_tick.md): the timer steps, the noise divider step, and the output
record of the state they leave. -/

namespace Sys2Proof.Machine

open Sys2Proof

/-- The end of a phase: flip the output and reload the countdown for the new phase (R502). -/
def Timer.endPhase (tm : Timer) : Timer :=
  { tm.flipOut with count := BitVec.ofNat 16 (phaseLen tm.reload (!tm.out)) }

/-- `TimerStep` (R501, R502): a stopped timer is untouched; a running one counts down and toggles at terminal count. -/
def Timer.step (tm : Timer) : Timer :=
  if tm.running then
    if tm.count - 1 = 0 then tm.endPhase else { tm with count := tm.count - 1 }
  else tm

/-- The three timer steps of a tick (R500, R505). -/
def Block.timersStep (b : Block) : Block :=
  ((b.modifyTimer 0 Timer.step).modifyTimer 1 Timer.step).modifyTimer 2 Timer.step

/-- `NoiseAdvance` (R511). -/
def Block.noiseAdvance (cfg : Config) (b : Block) : Block := { b with noise := cfg.noiseStep b.noise }

/-- `NoiseDividerStep` (R510): at zero, exactly one advance, and the divider starts again at `noiseClock`. -/
def Block.noiseDividerStep (cfg : Config) (b : Block) : Block :=
  if b.noiseTimer - 1 = 0 then { b.noiseAdvance cfg with noiseTimer := cfg.dividerStart }
  else { b with noiseTimer := b.noiseTimer - 1 }

/-- The steps of `Tick` (R500), in its order. -/
def Block.tick (cfg : Config) (b : Block) : Block := b.timersStep.noiseDividerStep cfg

/-- `TICK` (R500): the steps, then the record of the state they leave (R565). -/
def execTick (s : State) : Host.Outcome State Fault Refusal :=
  perform s fun s =>
    (s.onBlock (·.tick s.config)).emit (.record ((s.block.tick s.config).outputRecord s.config))

end Sys2Proof.Machine
end

