-- ==== Sys2Proof/Machine/Timers.lean ====
section
/-! DEFINITION. The writes that program the Interval Timer Bank (spec/40_timer_writes.md): `WR_TCTL` and
`WR_FREQ0`–`WR_FREQ2`. -/

namespace Sys2Proof.Machine

open Sys2Proof

/-- An accepted control write on its timer (R400): `reload`, `count` and `latch` are kept. -/
def Timer.control (tm : Timer) (v : Byte) : Timer := { tm.flagsAfterControl with ctrl := v }

/-- `CtrlWrite(v)` (R400), refused for SEL = 3 and then for MODEBITS other than 0x34 (R401; spec/60_exceptions.md R703). -/
def Block.ctrlWrite (b : Block) (v : Byte) : Block :=
  match selectedTimer v with
  | none => b.raise .ctrlSelect3
  | some t =>
    if modeBits v = squareWaveMode then b.modifyTimer t (·.control v) else b.raise (.ctrlMode v)

/-- `LowByte(t, v)` on its timer (R411). -/
def Timer.lowByte (tm : Timer) (v : Byte) : Timer := { tm.flagsAfterLow with latch := v }

/-- `HighByte(t, v)` on its timer (R412): load, and arm with the one-tick load cycle. -/
def Timer.highByte (tm : Timer) (v : Byte) : Timer :=
  { tm.flagsAfterHigh with
    reload := assembleReload v tm.latch
    count := BitVec.ofNat 16 (phaseLen (assembleReload v tm.latch) tm.out + 1) }

/-- A data byte for a programmed timer: the pointer alone says which byte it is (R410; spec/30_encoding.md R330). -/
def Timer.dataByte (tm : Timer) (v : Byte) : Timer := if tm.hiNext then tm.highByte v else tm.lowByte v

/-- `DataWrite(t, v)` (R410): refused before the timer's first control write (R411). -/
def Block.dataWrite (b : Block) (t : TimerIx) (v : Byte) : Block :=
  if modeBits (b.timerAt t).ctrl = squareWaveMode then b.modifyTimer t (·.dataByte v)
  else b.raise (.dataBeforeCtrl t)

/-- `WR_FREQ0 v` (R410). -/
def execWrFreq0 (v : Byte) (s : State) : Host.Outcome State Fault Refusal :=
  writeRegister s (freqAddr 0) v (·.dataWrite 0 v)

/-- `WR_FREQ1 v` (R410). -/
def execWrFreq1 (v : Byte) (s : State) : Host.Outcome State Fault Refusal :=
  writeRegister s (freqAddr 1) v (·.dataWrite 1 v)

/-- `WR_FREQ2 v` (R410). -/
def execWrFreq2 (v : Byte) (s : State) : Host.Outcome State Fault Refusal :=
  writeRegister s (freqAddr 2) v (·.dataWrite 2 v)

/-- `WR_TCTL v` (R400, R401). -/
def execWrTctl (v : Byte) (s : State) : Host.Outcome State Fault Refusal :=
  writeRegister s tctlAddr v (·.ctrlWrite v)

end Sys2Proof.Machine
end

