-- ==== Sys2Proof/Machine/Dispatch.lean ====
section
/-! DEFINITION. `exec`: one arm for each constructor of `Instr`. -/

namespace Sys2Proof.Machine

open Sys2Proof

def exec (i : Instr) (s : State) : Host.Outcome State Fault Refusal :=
  match i with
  | .wrFreq0 v => Sys2Proof.Machine.execWrFreq0 v s
  | .wrFreq1 v => Sys2Proof.Machine.execWrFreq1 v s
  | .wrFreq2 v => Sys2Proof.Machine.execWrFreq2 v s
  | .wrTctl v => Sys2Proof.Machine.execWrTctl v s
  | .wrUnmapped0407 a v => Sys2Proof.Machine.execWrUnmapped0407 a v s
  | .wrUnmapped080F a v => Sys2Proof.Machine.execWrUnmapped080F a v s
  | .wrVolPan c v => Sys2Proof.Machine.execWrVolPan c v s
  | .wrWave c v => Sys2Proof.Machine.execWrWave c v s
  | .wrUnmapped181F a v => Sys2Proof.Machine.execWrUnmapped181F a v s
  | .tick => Sys2Proof.Machine.execTick s
  | .reset => Sys2Proof.Machine.execReset s
  | .peek a => Sys2Proof.Machine.execPeek a s

end Sys2Proof.Machine
end

