-- ==== Sys2Proof/Machine/Requests.lean ====
section
/-! DEFINITION. What one request of the host's list does (spec/10_state.md R102): a host command word is decoded and
executed, a reserved word is refused (spec/30_encoding.md R320), and a named operation out of range is refused
(spec/44_host_protocol.md R600, spec/41_channel_writes.md R480). -/

namespace Sys2Proof.Machine

open Sys2Proof

/-- A host command word: its instruction, or the refusal `ReservedCommand` (R320). -/
def runWord (w : Hcw) (s : State) : Host.Outcome State Fault Refusal :=
  match decode w with
  | .ok i => exec i s
  | .error _ => perform s (·.raise .reservedCommand)

/-- One request. -/
def runRequest (r : Request) (s : State) : Host.Outcome State Fault Refusal :=
  match r with
  | .word w => runWord w s
  | .refuse reason => perform s (·.raise reason)

/-- No request: the block takes no step of its own and keeps its state (spec/00_scope.md R6, spec/60_exceptions.md R748;
log entry 12). -/
def idle (s : State) : Host.Outcome State Fault Refusal := perform s id

end Sys2Proof.Machine
end

