-- ==== Sys2Proof/Machine/Step.lean ====
section
/-! DEFINITION. One step of the machine: the next request of the host's list is taken and performed
(spec/10_state.md R102, spec/20_memory.md R208). -/

namespace Sys2Proof.Machine

open Sys2Proof

/-- Take the next request and perform it whole; with no request the block is idle. -/
def step (s : State) : Host.Outcome State Fault Refusal :=
  match s.fetch with
  | some r => runRequest r s.advance
  | none => idle s

/-- `s` with a word stored where `step` takes its next request: the bits of `w` from `nbits` on are zero, and a host
command word has 16 bits (log entries 1 and 2). -/
def State.withFetchWord (s : State) (nbits w : Nat) : State := s.placeWord (BitVec.ofNat 16 (w % 2 ^ nbits))

end Sys2Proof.Machine
end

