-- ==== Sys2Proof/Machine/HostOps.lean ====
section
/-! DEFINITION. The host operations of spec/30_encoding.md R340 and R341 and their expansions (spec/44_host_protocol.md
R600–R606, spec/41_channel_writes.md R480, R481, spec/20_memory.md R203), and the render loop's view of the records
(spec/43_synthesis_readout.md R567). -/

namespace Sys2Proof.Machine

open Sys2Proof

/-- A host operation as R340 and R341 write it. An address or a data value is any number: one outside the port widths is
refused with `PortRange` in every operation, as spec/20_memory.md R203 says of a host operation, where D4 and
spec/41_channel_writes.md R480 say it of a poke only (DESIGN CHOICE, safe: log entry 21). -/
inductive HostOp where
  /-- A host command word. -/
  | word (w : Hcw)
  /-- `WR a, v` (R340). -/
  | write (a v : Nat)
  /-- `PEEK a` (R340). -/
  | peek (a : Nat)
  /-- `SETFREQ c, f` (R601), `f` already clamped by the host (log entry 19). -/
  | setFreq (c : Nat) (f : BitVec 16)
  /-- `SETVOLPAN c, b` (R602). -/
  | setVolPan (c b : Nat)
  /-- `SETWAVE c, w` (R603). -/
  | setWave (c w : Nat)
  /-- `TICK n` (R604), which is `Render(n)`. -/
  | ticks (n : Nat)
  /-- `POKE a, v` (R605). -/
  | poke (a v : Nat)
  /-- `BATCH [(a1, v1), ..., (an, vn)]` (R606). -/
  | batch (pairs : List (Nat × Nat))
deriving DecidableEq, Repr

/-- `WR a, v` as a request (R340), for an address and a value of the ports. -/
def wr (a : Addr) (v : Byte) : Request := .word (encodeWrite a v)

/-- A write of a byte to an address, the refusal `PortRange` outside the ports (spec/20_memory.md R203,
spec/41_channel_writes.md R480). -/
def expandWrite (a v : Nat) : List Request :=
  if a < 32 ∧ v < 256 then [wr (BitVec.ofNat 5 a) (BitVec.ofNat 8 v)] else [.refuse .portRange]

/-- `PEEK a` (spec/30_encoding.md R305, R340), the refusal `PortRange` outside the address port (spec/20_memory.md R203;
log entry 21). -/
def expandPeek (a : Nat) : List Request :=
  if a < 32 then [.word (encode (.peek (BitVec.ofNat 5 a)))] else [.refuse .portRange]

/-- `SETFREQ` (R600, R601): control byte, low byte, high byte; channels 0–2 only. -/
def expandSetFreq (c : Nat) (f : BitVec 16) : List Request :=
  if h : c < 3 then
    [wr tctlAddr (controlByte ⟨c, h⟩), wr (freqAddr ⟨c, h⟩) (f.extractLsb' 0 8), wr (freqAddr ⟨c, h⟩) (f.extractLsb' 8 8)]
  else [.refuse .channelRange]

/-- A named operation that writes one channel's byte: the channel index is checked first (R600), then the value
(spec/20_memory.md R203). That the index comes first is the model's choice (log entry 21). -/
def expandChannelWrite (base c v : Nat) : List Request :=
  if c < 4 then expandWrite (base + c) v else [.refuse .channelRange]

/-- `SETVOLPAN` (R600, R602). -/
def expandSetVolPan (c b : Nat) : List Request := expandChannelWrite 0x10 c b

/-- `SETWAVE` (R600, R603). -/
def expandSetWave (c w : Nat) : List Request := expandChannelWrite 0x14 c w

/-- `TICK n` (R604). -/
def expandTicks (n : Nat) : List Request := List.replicate n (.word (encode .tick))

/-- `POKE a, v` (R605) is the write `WR a, v`. -/
def expandPoke (a v : Nat) : List Request := expandWrite a v

/-- The expansion of a host operation into requests, one for each atomic operation. -/
def HostOp.expand : HostOp → List Request
  | .word w => [.word w]
  | .write a v => expandWrite a v
  | .peek a => expandPeek a
  | .setFreq c f => expandSetFreq c f
  | .setVolPan c b => expandSetVolPan c b
  | .setWave c w => expandSetWave c w
  | .ticks n => expandTicks n
  | .poke a v => expandPoke a v
  | .batch pairs => pairs.flatMap fun p => expandPoke p.1 p.2

/-- The host submits a list of operations (spec/10_state.md R102; log entry 2). -/
def State.submit (s : State) (ops : List HostOp) : State :=
  { s with pending := s.pending ++ ops.flatMap HostOp.expand }

/-- The host's clamp of an internally computed frequency (R601, spec/40_timer_writes.md R413): host behaviour. -/
def clampFrequency (f : Nat) : BitVec 16 := BitVec.ofNat 16 (min f 65535)

/-- Run `k` steps, stopping at the first refusal. -/
def runSteps : Nat → State → Host.Outcome State Fault Refusal
  | 0, s => .next s
  | k + 1, s =>
    match step s with
    | .next t => runSteps k t
    | .fault f => .fault f
    | .refused r => .refused r

/-- An oscilloscope call of R567. -/
inductive ScopeCall where
  | beginBlock
  | putSample (c : Channel) (v : Int)
  | endBlock
deriving DecidableEq, Repr

/-- What `Render(n)` hands to the host (R567): the sample block and the oscilloscope calls. -/
structure Rendered where
  blockL : List (BitVec 16)
  blockR : List (BitVec 16)
  scope : List ScopeCall
deriving DecidableEq, Repr

/-- The oscilloscope calls of one record, channels in order (R567). -/
def OutputRecord.scopeCalls (r : OutputRecord) : List ScopeCall :=
  [.putSample 0 r.osc[0], .putSample 1 r.osc[1], .putSample 2 r.osc[2], .putSample 3 r.osc[3]]

/-- The output records among what was delivered. -/
def recordsOf : List Emission → List OutputRecord
  | [] => []
  | .record r :: es => r :: recordsOf es
  | .byte _ :: es => recordsOf es

/-- `Render` as a function of the records its ticks emitted (R567). -/
def rendered (rs : List OutputRecord) : Rendered where
  blockL := rs.map (·.outL)
  blockR := rs.map (·.outR)
  scope := [.beginBlock] ++ rs.flatMap OutputRecord.scopeCalls ++ [.endBlock]

/-- The block after the steps of `n` ticks (R604). -/
def Block.ticks (cfg : Config) : Nat → Block → Block
  | 0, b => b
  | n + 1, b => Block.ticks cfg n (b.tick cfg)

/-- The records of `n` ticks, first to last (R567). -/
def Block.tickRecords (cfg : Config) : Nat → Block → List OutputRecord
  | 0, _ => []
  | n + 1, b => (b.tick cfg).outputRecord cfg :: Block.tickRecords cfg n (b.tick cfg)

/-- `Render(n)`: the state after the ticks, and what the host received of them (R567). -/
def render (n : Nat) (s : State) : State × Rendered :=
  ({ s with block := s.block.ticks s.config n
            received := s.received ++ (s.block.tickRecords s.config n).map .record },
   rendered (s.block.tickRecords s.config n))

end Sys2Proof.Machine
end

