-- ==== Sys2Proof/Safety.lean ====
section
/-! DEFINITION. What claims are stated in: a state in which operations have a meaning, the invariant of
spec/10_state.md R120, what "unchanged" means for each part of the state, and a safe list of host operations
(spec/70_reset_and_hazards.md R826). -/

namespace Sys2Proof.Machine

open Sys2Proof

/-- Operations have a meaning: the configuration is valid (spec/44_host_protocol.md R611) and nothing has been refused
(spec/10_state.md R140). -/
abbrev State.Ready (s : State) : Prop := s.config.valid = true ∧ s.block.refused = none

/-- The divider period fits the 32-bit divider (spec/10_state.md R114), so that the spec states what the divider holds. -/
abbrev FitsDivider (cfg : Config) : Prop := cfg.noiseClock < 2 ^ 32

/-- A timer is programmed: its control byte has the one legal mode, so that it accepts data
(spec/40_timer_writes.md R411). -/
abbrev Timer.Programmed (tm : Timer) : Prop := modeBits tm.ctrl = squareWaveMode

/-- The invariant of R120, for a configuration. -/
structure Block.Inv (cfg : Config) (b : Block) : Prop where
  /-- R120.1, volume/pan. -/
  volpan_mirrored : ∀ c : Channel, b.mirrorAt (volPanAddr c) = b.volpanAt c
  /-- R120.1, waveform. -/
  wave_mirrored : ∀ c : Channel, b.mirrorAt (waveAddr c) = b.waveAt c
  /-- R120.2. -/
  count_range : ∀ t : TimerIx, (b.timerAt t).running = true →
    1 ≤ (b.timerAt t).count.toNat ∧ (b.timerAt t).count.toNat ≤ 32769
  /-- R120.3. -/
  running_programmed : ∀ t : TimerIx, (b.timerAt t).running = true → (b.timerAt t).Programmed
  /-- R120.4. -/
  divider_range : 1 ≤ b.noiseTimer.toNat ∧ b.noiseTimer.toNat ≤ cfg.noiseClock

/-- Everything of the state but the block is unchanged: configuration, pending operations, position, deliveries. -/
structure State.SameHost (s t : State) : Prop where
  config : t.config = s.config
  pending : t.pending = s.pending
  pos : t.pos = s.pos
  received : t.received = s.received

/-- The mirror is unchanged but at one address. -/
abbrev Block.MirrorSameBut (a : Addr) (b b' : Block) : Prop := ∀ a', a' ≠ a → b'.mirrorAt a' = b.mirrorAt a'

/-- The timers other than `t` are unchanged. -/
abbrev Block.TimersSameBut (t : TimerIx) (b b' : Block) : Prop := ∀ u, u ≠ t → b'.timerAt u = b.timerAt u

/-- Every timer is unchanged. -/
abbrev Block.TimersSame (b b' : Block) : Prop := ∀ u, b'.timerAt u = b.timerAt u

/-- Volume/pan and waveform registers are unchanged. -/
structure Block.ChannelsSame (b b' : Block) : Prop where
  volpan : ∀ c, b'.volpanAt c = b.volpanAt c
  wave : ∀ c, b'.waveAt c = b.waveAt c

/-- The noise divider and the noise generator are unchanged. -/
structure Block.NoiseSame (b b' : Block) : Prop where
  noiseTimer : b'.noiseTimer = b.noiseTimer
  noise : b'.noise = b.noise

/-- The two blocks differ at most in the mirror. -/
structure Block.EqualButMirror (b b' : Block) : Prop where
  volpan : b'.volpan = b.volpan
  wave : b'.wave = b.wave
  timer : b'.timer = b.timer
  noise : b.NoiseSame b'
  refused : b'.refused = b.refused

/-! ### What a host that is never refused does (spec/70_reset_and_hazards.md R826)

A host can tell from its own operations which timers it has programmed; `known` lists them. Each function answers the
timers known after an operation, or `none` where the operation has a form of R826's list. -/

/-- A register write: out of the ports, a data byte before its control byte, or a control byte other than the three. -/
def trackWrite (known : List TimerIx) (a v : Nat) : Option (List TimerIx) :=
  if 32 ≤ a ∨ 256 ≤ v then none
  else if h : a < 3 then (if ⟨a, h⟩ ∈ known then some known else none)
  else if a = 3 then
    if v = 0x34 then some (0 :: known)
    else if v = 0x74 then some (1 :: known)
    else if v = 0xB4 then some (2 :: known)
    else none
  else some known

/-- A host command word: a WRITE word, TICK, RESET (which forgets every control byte), PEEK, or a reserved word. -/
def trackWord (known : List TimerIx) (w : Hcw) : Option (List TimerIx) :=
  if w.toNat / 2 ^ 13 = 0 then trackWrite known (w.toNat / 2 ^ 8) (w.toNat % 2 ^ 8)
  else if w.toNat = 0x2000 then some known
  else if w.toNat = 0x4000 then some []
  else if w.toNat / 2 ^ 13 = 3 ∧ w.toNat % 2 ^ 8 = 0 then some known
  else none

/-- A host operation. -/
def HostOp.track (known : List TimerIx) : HostOp → Option (List TimerIx)
  | .word w => trackWord known w
  | .write a v => trackWrite known a v
  | .peek a => if a < 32 then some known else none
  | .setFreq c _ => if h : c < 3 then some (⟨c, h⟩ :: known) else none
  | .setVolPan c b => if c < 4 ∧ b < 256 then some known else none
  | .setWave c w => if c < 4 ∧ w < 256 then some known else none
  | .ticks _ => some known
  | .poke a v => trackWrite known a v
  | .batch pairs => pairs.foldlM (fun k p => trackWrite k p.1 p.2) known

/-- A list of host operations with no form of R826's list, for a host that knows `known` to be programmed. -/
def avoidsRefusal (known : List TimerIx) (ops : List HostOp) : Bool := (ops.foldlM HostOp.track known).isSome

end Sys2Proof.Machine
end

