-- ==== Sys2Proof/Certificates/Slice0/Obligations.lean ====
section
/-! DEFINITION. The statements for the provers. Each docstring names the rules of spec/ it formalises. -/

open Sys2Proof Sys2Proof.Machine

/-! ## Encoding -/

/-- Decoding the word of a well-formed instruction gives the instruction back, whatever its operands
(spec/30_encoding.md section 2 and section 4). -/
def Obligations.DecodeOfEncode : Prop := ∀ i : Instr, i.WellFormed → decode (encode i) = .ok i

/-- Each word has one meaning: a word that decodes is the word of its instruction, and that instruction is well formed
(spec/30_encoding.md section 2 and section 4). -/
def Obligations.EncodeOfDecode : Prop :=
  ∀ (w : Hcw) (i : Instr), decode w = .ok i → i.WellFormed ∧ encode i = w

/-- Words written out from spec/30_encoding.md and spec/95_test_vectors.md 2.1 decode to what they stand for. -/
def Obligations.WordsOfTheSpecDecode : Prop :=
  decode 0b0000001100110100 = .ok (.wrTctl 0x34) ∧
  decode 0b0000000100010010 = .ok (.wrFreq1 0x12) ∧
  decode 0b0001001100001111 = .ok (.wrVolPan 3 0x0F) ∧
  decode 0b0001010010000000 = .ok (.wrWave 0 0x80) ∧
  decode 0b0000101011111111 = .ok (.wrUnmapped080F 0x0A 0xFF) ∧
  decode 0b0001111110101010 = .ok (.wrUnmapped181F 0x1F 0xAA) ∧
  decode 0b0010000000000000 = .ok .tick ∧
  decode 0b0100000000000000 = .ok .reset ∧
  decode 0b0111111100000000 = .ok (.peek 0x1F) ∧
  decode 0b0010000000000001 = .error .tickOperand ∧
  decode 0b1000000000000000 = .error .reservedOp

/-- The reserved words are exactly those of the spec's list: OP 100–111, TICK or RESET with a bit of `[12:0]` set, PEEK with
a bit of `[7:0]` set (spec/30_encoding.md section 5). -/
def Obligations.ReservedWords : Prop :=
  ∀ w : Hcw, (∃ e, decode w = .error e) ↔
    4 ≤ w.toNat / 2 ^ 13 ∨
    ((w.toNat / 2 ^ 13 = 1 ∨ w.toNat / 2 ^ 13 = 2) ∧ w.toNat % 2 ^ 13 ≠ 0) ∨
    (w.toNat / 2 ^ 13 = 3 ∧ w.toNat % 2 ^ 8 ≠ 0)

/-- The opcode map: a word belongs to a row by the row's match and mask exactly when it decodes to an instruction of that
row, and the WRITE rows cover the words 0x0000–0x1FFF exactly (spec/30_encoding.md section 4). -/
def Obligations.OpcodeMapAgreesWithDecoder : Prop :=
  (∀ r ∈ opcodeRows, ∀ w : Hcw, r.covers w = true ↔ ∃ i, decode w = .ok i ∧ i.mnemonic = r.mnemonic) ∧
  (∀ w : Hcw, w.toNat < 0x2000 ↔ ∃ i, decode w = .ok i ∧ i.isWrite = true)

/-! ## The step and the host's list of operations -/

/-- A step on a word that decodes is `exec` of its instruction, at the state with the request taken off the host's list and
the position moved by one (spec/10_state.md section 2, spec/20_memory.md section 6). -/
def Obligations.StepRunsDecodedInstruction : Prop :=
  ∀ (s : State) (w : Hcw) (i : Instr) (rest : List Request), s.pending = .word w :: rest → decode w = .ok i →
    step s = exec i { s with pending := rest, pos := s.pos + 1 }

/-- Without an operation the block keeps its state: an idle step changes nothing (spec/00_scope.md section 2,
spec/60_exceptions.md section 10). That a step of the model may be idle is the model's choice (log entry 12). -/
def Obligations.IdleStepKeepsState : Prop :=
  ∀ s : State, s.Ready → s.pending = [] → step s = .next s

/-- Operations are taken in list order, one a step, and the position moves by one (spec/10_state.md section 2). The other
case, a step with nothing pending that changes nothing, is the model's choice (log entry 12). -/
def Obligations.StepTakesOneOperation : Prop :=
  ∀ s t : State, step s = .next t →
    (s.pending = [] ∧ t = s) ∨ (∃ r, s.pending = r :: t.pending ∧ t.pos = s.pos + 1)

/-- No operation changes the configuration (spec/10_state.md section 9). That a RESET keeps it too is the model's choice
(log entry 22). -/
def Obligations.ConfigurationIsFixed : Prop :=
  ∀ s t : State, step s = .next t → t.config = s.config

/-! ## Refusals -/

/-- The refusal mark is sticky: once it is set no step clears it and every step is refused, a RESET too
(spec/10_state.md section 11, spec/70_reset_and_hazards.md section 3). That the mark keeps its first reason when a later
operation is refused for another is the model's choice (log entry 4). -/
def Obligations.RefusalIsSticky : Prop :=
  ∀ (s : State) (r : RefusalReason), s.block.refused = some r →
    ∃ left, step s = .refused (.raised r left) ∧ left.block.refused = some r

/-- Under an invalid configuration the first operation is refused with `BadConfig`, and nothing of the block changes but
the mark (spec/44_host_protocol.md section 2). That the check stands at every step, an idle one too, is the model's choice
(log entry 6). -/
def Obligations.InvalidConfigurationIsRefused : Prop :=
  ∀ s : State, s.block.refused = none →
    (2 < s.config.clockSel ∨ (s.config.clockSel = 2 ∧ s.config.noiseRate = 0) ∨ s.config.chipClock = 0) →
    ∃ left, step s = .refused (.raised .badConfig left) ∧
      left.block = { s.block with refused := some .badConfig }

/-- A reserved word is refused with `ReservedCommand`, and nothing of the block changes but the mark
(spec/30_encoding.md section 5). -/
def Obligations.ReservedWordIsRefused : Prop :=
  ∀ (s : State) (w : Hcw) (rest : List Request), s.Ready → s.pending = .word w :: rest →
    (4 ≤ w.toNat / 2 ^ 13 ∨
      ((w.toNat / 2 ^ 13 = 1 ∨ w.toNat / 2 ^ 13 = 2) ∧ w.toNat % 2 ^ 13 ≠ 0) ∨
      (w.toNat / 2 ^ 13 = 3 ∧ w.toNat % 2 ^ 8 ≠ 0)) →
    ∃ left, step s = .refused (.raised .reservedCommand left) ∧
      left.block = { s.block with refused := some .reservedCommand } ∧ left.received = s.received

/-- A control write that is not of an accepted form is refused: `CtrlSelect3` for SEL = 3, else `CtrlMode(v)`. The mirror
write has happened; no timer field and nothing else changes (spec/40_timer_writes.md section 1). -/
def Obligations.ControlWriteRefusals : Prop :=
  ∀ (v : Byte) (s : State), s.Ready → (v.toNat / 64 = 3 ∨ v.toNat % 64 ≠ 0x34) →
    ∃ left, exec (.wrTctl v) s =
        .refused (.raised (if v.toNat / 64 = 3 then .ctrlSelect3 else .ctrlMode v) left) ∧
      left.block.mirrorAt 0x03 = v ∧ s.block.MirrorSameBut 0x03 left.block ∧ s.block.TimersSame left.block ∧
      s.block.ChannelsSame left.block ∧ s.block.NoiseSame left.block ∧ s.SameHost left

/-- A data byte for a timer whose `ctrl[5:0]` is not 0x34 is refused with `DataBeforeCtrl(t)`. The mirror write has
happened; nothing else changes (spec/40_timer_writes.md section 2; `WR_FREQ0`, `WR_FREQ1`, `WR_FREQ2`). -/
def Obligations.DataBeforeControlIsRefused : Prop :=
  ∀ (t : TimerIx) (v : Byte) (s : State), s.Ready → (s.block.timerAt t).ctrl.toNat % 64 ≠ 0x34 →
    ∃ left, exec (.wrFreq t v) s = .refused (.raised (.dataBeforeCtrl t) left) ∧
      left.block.mirrorAt (BitVec.ofNat 5 t.val) = v ∧ s.block.MirrorSameBut (BitVec.ofNat 5 t.val) left.block ∧
      s.block.TimersSame left.block ∧ s.block.ChannelsSame left.block ∧ s.block.NoiseSame left.block ∧ s.SameHost left

/-- A host operation out of range is refused with its reason and issues no write: `ChannelRange` for a channel index the
named operation does not have, `PortRange` for an address of 32 or more or a data value of 256 or more
(spec/44_host_protocol.md section 1, spec/41_channel_writes.md section 5, spec/20_memory.md section 2). That the refusal
is an entry of the host's list is the model's choice (log entry 19); so are `PortRange` in an operation other than a poke
and the channel index checked before the value (log entry 21). -/
def Obligations.OutOfRangeRequestChangesNothing : Prop :=
  ∀ (s : State) (op : HostOp) (r : RefusalReason) (rest : List Request), s.Ready → s.pending = op.expand ++ rest →
    ((r = .channelRange ∧
        ((∃ c f, op = .setFreq c f ∧ 3 ≤ c) ∨ (∃ c b, op = .setVolPan c b ∧ 4 ≤ c) ∨
          (∃ c w, op = .setWave c w ∧ 4 ≤ c))) ∨
      (r = .portRange ∧
        ((∃ a v, (op = .poke a v ∨ op = .write a v) ∧ (32 ≤ a ∨ 256 ≤ v)) ∨ (∃ a, op = .peek a ∧ 32 ≤ a) ∨
          (∃ c v, (op = .setVolPan c v ∨ op = .setWave c v) ∧ c < 4 ∧ 256 ≤ v)))) →
    ∃ left, step s = .refused (.raised r left) ∧ left.block = { s.block with refused := some r } ∧
      left.received = s.received ∧ left.config = s.config

/-! ## Register writes -/

/-- Every register write lands in the mirror at its own address and nowhere else, also when the write is then refused
(spec/10_state.md section 3, spec/30_encoding.md section 1). -/
def Obligations.WriteAlwaysLandsInMirror : Prop :=
  ∀ (i : Instr) (s : State), i.isWrite = true → s.Ready →
    ∃ t, (exec i s = .next t ∨ ∃ r, exec i s = .refused (.raised r t)) ∧
      t.block.mirrorAt (addrField (encode i)) = dataField (encode i) ∧
      s.block.MirrorSameBut (addrField (encode i)) t.block

/-- `WR_TCTL` with the control byte of timer `t` completes: the timer takes the byte, stops, drives its output high and
expects a low byte; its `reload`, `count` and `latch`, the other timers and everything else are unchanged
(spec/40_timer_writes.md section 1). -/
def Obligations.ControlWriteProgramsTimer : Prop :=
  ∀ (t : TimerIx) (v : Byte) (s : State), s.Ready → v.toNat = 0x34 + 64 * t.val →
    ∃ s', exec (.wrTctl v) s = .next s' ∧
      s'.block.timerAt t = { s.block.timerAt t with ctrl := v, hiNext := false, running := false, out := true } ∧
      s.block.TimersSameBut t s'.block ∧ s'.block.mirrorAt 0x03 = v ∧ s.block.MirrorSameBut 0x03 s'.block ∧
      s.block.ChannelsSame s'.block ∧ s.block.NoiseSame s'.block ∧ s'.block.refused = none ∧ s.SameHost s'

/-- `WR_FREQ0`, `WR_FREQ1`, `WR_FREQ2` with the pointer at the low byte complete: the byte is latched and the pointer moves;
a running timer is not disturbed, and nothing else changes (spec/40_timer_writes.md section 2). -/
def Obligations.LowByteIsLatched : Prop :=
  ∀ (t : TimerIx) (v : Byte) (s : State), s.Ready → (s.block.timerAt t).ctrl.toNat % 64 = 0x34 →
    (s.block.timerAt t).hiNext = false →
    ∃ s', exec (.wrFreq t v) s = .next s' ∧
      s'.block.timerAt t = { s.block.timerAt t with latch := v, hiNext := true } ∧
      s.block.TimersSameBut t s'.block ∧ s'.block.mirrorAt (BitVec.ofNat 5 t.val) = v ∧
      s.block.MirrorSameBut (BitVec.ofNat 5 t.val) s'.block ∧
      s.block.ChannelsSame s'.block ∧ s.block.NoiseSame s'.block ∧ s'.block.refused = none ∧ s.SameHost s'

/-- `WR_FREQ0`, `WR_FREQ1`, `WR_FREQ2` with the pointer at the high byte complete: the reload is `(v << 8) | latch`, the
timer is armed with the phase length of its present output plus the one-tick load cycle, the output is kept, and nothing
else changes (spec/40_timer_writes.md section 2, spec/42_sample_tick.md section 1). -/
def Obligations.HighByteLoadsAndArms : Prop :=
  ∀ (t : TimerIx) (v : Byte) (s : State), s.Ready → (s.block.timerAt t).ctrl.toNat % 64 = 0x34 →
    (s.block.timerAt t).hiNext = true →
    ∃ s', exec (.wrFreq t v) s = .next s' ∧
      (s'.block.timerAt t).reload.toNat = 256 * v.toNat + (s.block.timerAt t).latch.toNat ∧
      (s'.block.timerAt t).count.toNat = phaseLen (s'.block.timerAt t).reload (s.block.timerAt t).out + 1 ∧
      s'.block.timerAt t =
        { s.block.timerAt t with
          reload := (s'.block.timerAt t).reload, count := (s'.block.timerAt t).count, hiNext := false, running := true } ∧
      s.block.TimersSameBut t s'.block ∧ s'.block.mirrorAt (BitVec.ofNat 5 t.val) = v ∧
      s.block.MirrorSameBut (BitVec.ofNat 5 t.val) s'.block ∧
      s.block.ChannelsSame s'.block ∧ s.block.NoiseSame s'.block ∧ s'.block.refused = none ∧ s.SameHost s'

/-- `WR_VOLPAN c, v` completes: `volpan[c]` and `mirror[0x10 + c]` hold the byte, and nothing else changes
(spec/41_channel_writes.md section 1). -/
def Obligations.VolPanWriteSetsRegister : Prop :=
  ∀ (c : Channel) (v : Byte) (s : State), s.Ready →
    ∃ s', exec (.wrVolPan c v) s = .next s' ∧
      s'.block.volpanAt c = v ∧ (∀ d, d ≠ c → s'.block.volpanAt d = s.block.volpanAt d) ∧
      (∀ d, s'.block.waveAt d = s.block.waveAt d) ∧
      s'.block.mirrorAt (BitVec.ofNat 5 (0x10 + c.val)) = v ∧
      s.block.MirrorSameBut (BitVec.ofNat 5 (0x10 + c.val)) s'.block ∧
      s.block.TimersSame s'.block ∧ s.block.NoiseSame s'.block ∧ s'.block.refused = none ∧ s.SameHost s'

/-- `WR_WAVE c, v` completes: `wave[c]` and `mirror[0x14 + c]` hold the byte, and nothing else changes: no timer's phase,
no noise state (spec/41_channel_writes.md section 2). -/
def Obligations.WaveWriteSetsRegister : Prop :=
  ∀ (c : Channel) (v : Byte) (s : State), s.Ready →
    ∃ s', exec (.wrWave c v) s = .next s' ∧
      s'.block.waveAt c = v ∧ (∀ d, d ≠ c → s'.block.waveAt d = s.block.waveAt d) ∧
      (∀ d, s'.block.volpanAt d = s.block.volpanAt d) ∧
      s'.block.mirrorAt (BitVec.ofNat 5 (0x14 + c.val)) = v ∧
      s.block.MirrorSameBut (BitVec.ofNat 5 (0x14 + c.val)) s'.block ∧
      s.block.TimersSame s'.block ∧ s.block.NoiseSame s'.block ∧ s'.block.refused = none ∧ s.SameHost s'

/-- The three unmapped writes complete: the byte is in the mirror, and nothing else changes
(spec/41_channel_writes.md section 3). -/
def Obligations.UnmappedWriteIsMirrorOnly : Prop :=
  ∀ (i : Instr) (a : Addr) (v : Byte) (s : State), s.Ready →
    (i = .wrUnmapped0407 a v ∨ i = .wrUnmapped080F a v ∨ i = .wrUnmapped181F a v) →
    ∃ s', exec i s = .next s' ∧ s'.block.mirrorAt a = v ∧ s.block.MirrorSameBut a s'.block ∧
      s.block.EqualButMirror s'.block ∧ s.SameHost s'

/-- Writing the same byte twice to any address but the frequency addresses is the same as writing it once
(spec/20_memory.md section 3). -/
def Obligations.WritesAreIdempotentButData : Prop :=
  ∀ (i : Instr) (s t : State), i.isWrite = true → i.WellFormed → 2 < (addrField (encode i)).toNat →
    exec i s = .next t → exec i t = .next t

/-- Two writes of one byte to a frequency address, the pointer at the low byte, load `(v << 8) | v`
(spec/20_memory.md section 3). -/
def Obligations.TwoEqualDataBytesLoad : Prop :=
  ∀ (t : TimerIx) (v : Byte) (s : State), s.Ready → (s.block.timerAt t).ctrl.toNat % 64 = 0x34 →
    (s.block.timerAt t).hiNext = false →
    ∃ s₁ s₂, exec (.wrFreq t v) s = .next s₁ ∧ exec (.wrFreq t v) s₁ = .next s₂ ∧
      (s₂.block.timerAt t).reload.toNat = 257 * v.toNat ∧ (s₂.block.timerAt t).running = true ∧
      (s₂.block.timerAt t).hiNext = false

/-! ## PEEK and RESET -/

/-- `PEEK a` completes: it delivers `mirror[a]` and changes nothing of the block (spec/41_channel_writes.md section 4). -/
def Obligations.PeekDeliversMirror : Prop :=
  ∀ (a : Addr) (s : State), s.Ready →
    exec (.peek a) s = .next { s with received := s.received ++ [.byte (s.block.mirrorAt a)] }

/-- `RESET` completes: every field has its reset value, the mark is left alone, no record is emitted and nothing
already delivered changes (spec/70_reset_and_hazards.md section 1). The value of the divider is stated for a period
that fits its 32 bits. That RESET keeps the configuration too is the model's choice (log entry 22). -/
def Obligations.ResetSetsEveryField : Prop :=
  ∀ s : State, s.Ready →
    ∃ t, exec .reset s = .next t ∧ (∀ a, t.block.mirrorAt a = 0) ∧ (∀ c, t.block.volpanAt c = 0) ∧
      (∀ c, t.block.waveAt c = 0) ∧
      (∀ u, t.block.timerAt u = { ctrl := 0, reload := 0, count := 0, latch := 0, hiNext := false, running := false, out := false }) ∧
      (FitsDivider s.config → t.block.noiseTimer.toNat = s.config.noiseClock) ∧
      t.block.noise = s.config.noiseSeed ∧ t.block.refused = s.block.refused ∧ s.SameHost t

/-- RESET twice in a row is the same as once (spec/70_reset_and_hazards.md section 1). That each RESET keeps the
configuration is the model's choice (log entry 22). -/
def Obligations.ResetTwiceIsResetOnce : Prop :=
  ∀ s t : State, exec .reset s = .next t → exec .reset t = .next t

/-- The initial state of a configuration is the reset state with no mark, and no operation is pending
(spec/70_reset_and_hazards.md section 1, spec/10_state.md section 10). The empty host side is the model's choice (log
entries 2 and 3). So is that RESET keeps the configuration (log entry 22). -/
def Obligations.InitialStateIsResetState : Prop :=
  ∀ cfg : Config, cfg.valid = true →
    exec .reset (State.init cfg) = .next (State.init cfg) ∧ (State.init cfg).block.refused = none ∧
      (State.init cfg).pending = [] ∧ (State.init cfg).received = []

/-! ## TICK -/

/-- `TICK` completes and delivers exactly one record, computed from the state it leaves; registers, mark, configuration and
the host's list are unchanged (spec/42_sample_tick.md section 1, spec/43_synthesis_readout.md section 4). -/
def Obligations.TickDeliversOneRecord : Prop :=
  ∀ s : State, s.Ready →
    ∃ t, exec .tick s = .next t ∧ t.received = s.received ++ [.record (t.block.outputRecord s.config)] ∧
      (∀ a, t.block.mirrorAt a = s.block.mirrorAt a) ∧ s.block.ChannelsSame t.block ∧ t.block.refused = none ∧
      t.config = s.config ∧ t.pending = s.pending ∧ t.pos = s.pos

/-- A TICK changes nothing of a timer that is not running: every field keeps its value, and the carrier bit of its channel
is constant (spec/42_sample_tick.md R501). -/
def Obligations.StoppedTimerIsUnchanged : Prop :=
  ∀ (s : State) (t : TimerIx), s.Ready → (s.block.timerAt t).running = false →
    ∃ s', exec .tick s = .next s' ∧ s'.block.timerAt t = s.block.timerAt t ∧
      ∀ c : Channel, c.val = t.val → s'.block.carrier s'.config c = s.block.carrier s.config c

/-- A TICK of a running timer counts down by one; at terminal count it flips the output and reloads the countdown with the
length of the phase that begins. `reload`, `ctrl`, `latch`, `hiNext` and `running` are not written
(spec/42_sample_tick.md section 1). -/
def Obligations.RunningTimerCountsAndToggles : Prop :=
  ∀ (s : State) (t : TimerIx), s.Ready → (s.block.timerAt t).running = true → 1 ≤ (s.block.timerAt t).count.toNat →
    ∃ s', exec .tick s = .next s' ∧
      s'.block.timerAt t =
        { s.block.timerAt t with count := (s'.block.timerAt t).count, out := (s'.block.timerAt t).out } ∧
      ((s.block.timerAt t).count.toNat = 1 →
        (s'.block.timerAt t).out = !(s.block.timerAt t).out ∧
        (s'.block.timerAt t).count.toNat = phaseLen (s.block.timerAt t).reload (!(s.block.timerAt t).out)) ∧
      ((s.block.timerAt t).count.toNat ≠ 1 →
        (s'.block.timerAt t).out = (s.block.timerAt t).out ∧
        (s'.block.timerAt t).count.toNat = (s.block.timerAt t).count.toNat - 1)

/-- The phase-length function: for a counting length `N` (65536 for a reload of 0) the high phase is `ceil(N/2)` ticks and
the low phase `floor(N/2)`, at least 1; together they are exactly `N` for `N ≥ 2`, and 1 and 1 for `N = 1`; every phase
lies in 1..32768 (spec/42_sample_tick.md section 1). -/
def Obligations.PhaseLengths : Prop :=
  ∀ (r : BitVec 16) (N : Nat), (r = 0 ∧ N = 65536 ∨ r ≠ 0 ∧ N = r.toNat) →
    phaseLen r true = (N + 1) / 2 ∧ phaseLen r false = max 1 (N / 2) ∧
    (2 ≤ N → phaseLen r true + phaseLen r false = N) ∧
    (N = 1 → phaseLen r true = 1 ∧ phaseLen r false = 1) ∧
    (∀ o, 1 ≤ phaseLen r o ∧ phaseLen r o ≤ 32768)

/-- The three timers are independent: their steps may be taken in any order, and the timer a TICK leaves depends on that
timer alone (spec/42_sample_tick.md section 1). -/
def Obligations.TimersAreIndependent : Prop :=
  (∀ (b : Block) (t u : TimerIx),
    (b.modifyTimer t Timer.step).modifyTimer u Timer.step = (b.modifyTimer u Timer.step).modifyTimer t Timer.step) ∧
  (∀ (s s' x x' : State) (t : TimerIx), exec .tick s = .next x → exec .tick s' = .next x' →
    s.block.timerAt t = s'.block.timerAt t → x.block.timerAt t = x'.block.timerAt t)

/-- On every TICK the noise divider counts down by one; when it reaches zero there is exactly one noise advance and the
divider is set to `noiseClock`, else the noise state is unchanged (spec/42_sample_tick.md section 2). It is stated for a
period that fits the 32-bit divider. -/
def Obligations.NoiseDividerStepsOnTick : Prop :=
  ∀ s : State, s.Ready → FitsDivider s.config → 1 ≤ s.block.noiseTimer.toNat →
    ∃ t, exec .tick s = .next t ∧
      (s.block.noiseTimer.toNat - 1 = 0 →
        t.block.noise = s.config.noiseStep s.block.noise ∧ t.block.noiseTimer.toNat = s.config.noiseClock) ∧
      (s.block.noiseTimer.toNat - 1 ≠ 0 →
        t.block.noise = s.block.noise ∧ t.block.noiseTimer.toNat = s.block.noiseTimer.toNat - 1)

/-- The number of noise advances over `n` consecutive ticks is `floor((noiseClock − k + n) / noiseClock)`, with `k` the
divider's count before them, whatever the noise algorithm is (spec/42_sample_tick.md section 2). -/
def Obligations.NoiseAdvanceCount : Prop :=
  ∀ (n : Nat) (s : State), s.Ready → FitsDivider s.config →
    1 ≤ s.block.noiseTimer.toNat → s.block.noiseTimer.toNat ≤ s.config.noiseClock →
    s.pending = HostOp.expand (.ticks n) →
    ∃ t, runSteps n s = .next t ∧
      t.block.noise =
        s.config.noiseStep^[(s.config.noiseClock - s.block.noiseTimer.toNat + n) / s.config.noiseClock] s.block.noise

/-- Only TICK and RESET change the noise divider or the noise state: no register write and no PEEK does
(spec/10_state.md section 5, spec/42_sample_tick.md section 2). -/
def Obligations.NoiseChangesOnlyByTickOrReset : Prop :=
  ∀ (i : Instr) (s t : State), exec i s = .next t → i ≠ .tick → i ≠ .reset → s.block.NoiseSame t.block

/-- Only TICK and PEEK deliver anything, one emission each, and nothing delivered earlier is touched
(spec/43_synthesis_readout.md section 4, spec/70_reset_and_hazards.md section 1). Keeping what was delivered is the
model's choice (log entry 3). -/
def Obligations.DeliveriesOnlyGrow : Prop :=
  ∀ (i : Instr) (s t : State), exec i s = .next t →
    match i with
    | .tick => ∃ r, t.received = s.received ++ [.record r]
    | .peek _ => ∃ v, t.received = s.received ++ [.byte v]
    | _ => t.received = s.received

/-! ## Synthesis -/

/-- A channel's contributions: the carrier bit is the timer's output for channels 0–2 and the noise output bit for channel
3, the signal is `W` of the waveform selector and that bit, and each side is the signal times its nibble
(spec/43_synthesis_readout.md sections 1 and 2). -/
def Obligations.ChannelContributions : Prop :=
  ∀ (cfg : Config) (b : Block) (c : Channel),
    (∀ t : TimerIx, t.val = c.val → b.carrier cfg c = (b.timerAt t).out) ∧
    (c.val = 3 → b.carrier cfg c = cfg.noiseOutBit b.noise) ∧
    (b.outputRecord cfg).chanL[c.val] =
      signalValue (cfg.wave (b.waveAt c) (b.carrier cfg c)) * ((b.volpanAt c).toNat / 16 : Nat) ∧
    (b.outputRecord cfg).chanR[c.val] =
      signalValue (cfg.wave (b.waveAt c) (b.carrier cfg c)) * ((b.volpanAt c).toNat % 16 : Nat) ∧
    -15 ≤ (b.outputRecord cfg).chanL[c.val] ∧ (b.outputRecord cfg).chanL[c.val] ≤ 15 ∧
    -15 ≤ (b.outputRecord cfg).chanR[c.val] ∧ (b.outputRecord cfg).chanR[c.val] ≤ 15

/-- The stereo mix is the exact integer sum of the four channels' contributions of each side, and lies in −60..60
(spec/43_synthesis_readout.md R553). -/
def Obligations.StereoMixIsExactSum : Prop :=
  ∀ (cfg : Config) (b : Block),
    b.mixL cfg = b.chanL cfg 0 + b.chanL cfg 1 + b.chanL cfg 2 + b.chanL cfg 3 ∧
    b.mixR cfg = b.chanR cfg 0 + b.chanR cfg 1 + b.chanR cfg 2 + b.chanR cfg 3 ∧
    -60 ≤ b.mixL cfg ∧ b.mixL cfg ≤ 60 ∧ -60 ≤ b.mixR cfg ∧ b.mixR cfg ≤ 60

/-- The audio samples: each audio sample, read as a signed 16-bit number, is 128 times the exact sum of the four channels'
contributions of its side, with no clipping and no wrap, and lies in −7680..7680
(spec/43_synthesis_readout.md sections 2 and 3). -/
def Obligations.AudioSamplesAreExactSums : Prop :=
  ∀ (cfg : Config) (b : Block),
    (b.outputRecord cfg).outL.toInt =
      128 * ((b.outputRecord cfg).chanL[0] + (b.outputRecord cfg).chanL[1] + (b.outputRecord cfg).chanL[2] +
        (b.outputRecord cfg).chanL[3]) ∧
    (b.outputRecord cfg).outR.toInt =
      128 * ((b.outputRecord cfg).chanR[0] + (b.outputRecord cfg).chanR[1] + (b.outputRecord cfg).chanR[2] +
        (b.outputRecord cfg).chanR[3]) ∧
    -7680 ≤ (b.outputRecord cfg).outL.toInt ∧ (b.outputRecord cfg).outL.toInt ≤ 7680 ∧
    -7680 ≤ (b.outputRecord cfg).outR.toInt ∧ (b.outputRecord cfg).outR.toInt ≤ 7680

/-- The oscilloscope sample of a channel is 512 times each side's contribution, summed, and lies in −15360..15360
(spec/43_synthesis_readout.md section 3). -/
def Obligations.OscilloscopeScale : Prop :=
  ∀ (cfg : Config) (b : Block) (c : Channel),
    (b.outputRecord cfg).osc[c.val] =
      512 * (b.outputRecord cfg).chanL[c.val] + 512 * (b.outputRecord cfg).chanR[c.val] ∧
    -15360 ≤ (b.outputRecord cfg).osc[c.val] ∧ (b.outputRecord cfg).osc[c.val] ≤ 15360

/-- Corner cases of the mixer: `volpan[c] = 0x00` silences a channel on both sides whatever `W` is, and 0xFF gives 15 times
its signal on both (spec/43_synthesis_readout.md section 2). -/
def Obligations.SilenceAndFullLevel : Prop :=
  ∀ (cfg : Config) (b : Block) (c : Channel),
    (b.volpanAt c = 0x00 → (b.outputRecord cfg).chanL[c.val] = 0 ∧ (b.outputRecord cfg).chanR[c.val] = 0) ∧
    (b.volpanAt c = 0xFF →
      (b.outputRecord cfg).chanL[c.val] = 15 * b.signal cfg c ∧ (b.outputRecord cfg).chanR[c.val] = 15 * b.signal cfg c)

/-- The block is silent until a level is written: while every volume/pan byte is 0 a TICK's samples are all 0, whatever the
timers, the noise and `W` are, and through any run whose operations write no volume/pan byte but 0 every byte stays 0 and
every record delivered is silent (spec/70_reset_and_hazards.md section 1). -/
def Obligations.SilentUntilALevelIsWritten : Prop :=
  (∀ s t : State, (∀ c, s.block.volpanAt c = 0) → exec .tick s = .next t →
    ∃ r, t.received = s.received ++ [.record r] ∧ r.outL = 0 ∧ r.outR = 0 ∧ ∀ c : Channel, r.osc[c.val] = 0) ∧
  (∀ (n : Nat) (s t : State), (∀ c, s.block.volpanAt c = 0) →
    (∀ w c v, Request.word w ∈ s.pending → decode w = .ok (.wrVolPan c v) → v = 0) → runSteps n s = .next t →
    (∀ c, t.block.volpanAt c = 0) ∧
    ∃ es, t.received = s.received ++ es ∧
      ∀ r, Emission.record r ∈ es → r.outL = 0 ∧ r.outR = 0 ∧ ∀ c : Channel, r.osc[c.val] = 0)

/-! ## The host's named operations -/

/-- `SETVOLPAN c, b` expands to the one write `0x10 + c ← b` (R602); for any other channel index it is refused with
`ChannelRange` and issues no write (R600, spec/44_host_protocol.md section 1). That the refusal is an entry of the host's
list is the model's choice (log entry 19), and so is `PortRange` for a value of 256 or more (log entry 21). -/
def Obligations.SetVolPanExpansion : Prop :=
  ∀ c b : Nat,
    (c ≤ 3 → b < 256 →
      ∃ w, HostOp.expand (.setVolPan c b) = [.word w] ∧ w.toNat = 256 * (0x10 + c) + b) ∧
    (3 < c → HostOp.expand (.setVolPan c b) = [.refuse .channelRange]) ∧
    (c ≤ 3 → 256 ≤ b → HostOp.expand (.setVolPan c b) = [.refuse .portRange])

/-- `SETWAVE c, w` expands to the one write `0x14 + c ← w` (R603); for any other channel index it is refused with
`ChannelRange` and issues no write (R600, spec/44_host_protocol.md section 1). That the refusal is an entry of the host's
list is the model's choice (log entry 19), and so is `PortRange` for a value of 256 or more (log entry 21). -/
def Obligations.SetWaveExpansion : Prop :=
  ∀ c v : Nat,
    (c ≤ 3 → v < 256 →
      ∃ w, HostOp.expand (.setWave c v) = [.word w] ∧ w.toNat = 256 * (0x14 + c) + v) ∧
    (3 < c → HostOp.expand (.setWave c v) = [.refuse .channelRange]) ∧
    (c ≤ 3 → 256 ≤ v → HostOp.expand (.setWave c v) = [.refuse .portRange])

/-- `POKE a, v` expands to `WR a, v` when `a < 32` and `v < 256`, and is refused with `PortRange` otherwise
(spec/44_host_protocol.md section 1, spec/41_channel_writes.md section 5). That the refusal is an entry of the host's list
is the model's choice (log entry 19). -/
def Obligations.PokeExpansion : Prop :=
  ∀ a v : Nat,
    (a < 32 → v < 256 → ∃ w, HostOp.expand (.poke a v) = [.word w] ∧ w.toNat = 256 * a + v) ∧
    (32 ≤ a ∨ 256 ≤ v → HostOp.expand (.poke a v) = [.refuse .portRange])

/-- `WR a, v` and `PEEK a` are the words of spec/30_encoding.md section 7, and are refused outside the ports
(spec/20_memory.md section 2). That R203's refusal holds of them as of a poke is the model's choice (log entry 21). -/
def Obligations.WriteAndPeekExpansion : Prop :=
  ∀ a v : Nat,
    (a < 32 → v < 256 → ∃ w, HostOp.expand (.write a v) = [.word w] ∧ w.toNat = 256 * a + v) ∧
    (32 ≤ a ∨ 256 ≤ v → HostOp.expand (.write a v) = [.refuse .portRange]) ∧
    (a < 32 → ∃ w, HostOp.expand (.peek a) = [.word w] ∧ w.toNat = 0x6000 + 256 * a) ∧
    (32 ≤ a → HostOp.expand (.peek a) = [.refuse .portRange])

/-- `BATCH` expands to its pokes, in order; the empty batch to nothing (spec/44_host_protocol.md R606). -/
def Obligations.BatchIsItsPokesInOrder : Prop :=
  HostOp.expand (.batch []) = [] ∧
  ∀ (a v : Nat) (rest : List (Nat × Nat)),
    HostOp.expand (.batch ((a, v) :: rest)) = HostOp.expand (.poke a v) ++ HostOp.expand (.batch rest)

/-- `SETFREQ c, f` programs its timer: three steps after submission in any ready state the timer is loaded with `f`, armed
with a high phase and the load cycle, the mirror shows the control byte and the high byte, and the other timers, the
channel registers and the noise state are unchanged (spec/44_host_protocol.md section 1). -/
def Obligations.SetFreqLoadsTimer : Prop :=
  ∀ (t : TimerIx) (f : BitVec 16) (s : State), s.Ready → s.pending = HostOp.expand (.setFreq t.val f) →
    ∃ s', runSteps 3 s = .next s' ∧ s'.pending = [] ∧
      (s'.block.timerAt t).ctrl.toNat = 0x34 + 64 * t.val ∧ (s'.block.timerAt t).reload = f ∧
      (s'.block.timerAt t).count.toNat = phaseLen f true + 1 ∧ (s'.block.timerAt t).latch.toNat = f.toNat % 256 ∧
      (s'.block.timerAt t).hiNext = false ∧ (s'.block.timerAt t).running = true ∧ (s'.block.timerAt t).out = true ∧
      (s'.block.mirrorAt 0x03).toNat = 0x34 + 64 * t.val ∧
      (s'.block.mirrorAt (BitVec.ofNat 5 t.val)).toNat = f.toNat / 256 ∧
      s.block.TimersSameBut t s'.block ∧ s.block.ChannelsSame s'.block ∧ s.block.NoiseSame s'.block ∧
      s'.received = s.received

/-- The waveform of a load: after `SETFREQ c, f` and `n` ticks the timer's output is high exactly when the sample's place in
the period falls in the high phase. For a counting length `N` the high phase is `ceil(N/2)` samples and the low phase
`max(1, floor(N/2))`, from the first tick on and for ever (spec/42_sample_tick.md section 1). -/
def Obligations.SquareWaveAfterLoad : Prop :=
  ∀ (t : TimerIx) (f : BitVec 16) (n N : Nat) (s : State), s.Ready →
    (f = 0 ∧ N = 65536 ∨ f ≠ 0 ∧ N = f.toNat) →
    s.pending = HostOp.expand (.setFreq t.val f) ++ HostOp.expand (.ticks (n + 1)) →
    ∃ s', runSteps (3 + (n + 1)) s = .next s' ∧
      (s'.block.timerAt t).out = decide (n % ((N + 1) / 2 + max 1 (N / 2)) < (N + 1) / 2)

/-- `TICK n` is `Render(n)`: the run of its expansion ends in the state of the render, with the sample block and the
oscilloscope calls of the records delivered on the way (spec/43_synthesis_readout.md section 4,
spec/44_host_protocol.md section 1). -/
def Obligations.TicksAreRender : Prop :=
  ∀ (n : Nat) (s : State), s.Ready → s.pending = HostOp.expand (.ticks n) →
    ∃ t, runSteps n s = .next t ∧ t.block = (render n s).1.block ∧ t.received = (render n s).1.received ∧
      t.pending = [] ∧ t.pos = s.pos + n ∧
      (render n s).2 = rendered (recordsOf (t.received.drop s.received.length)) ∧
      (render n s).2.blockL.length = n ∧ (render n s).2.scope.length = 4 * n + 2

/-- The block's state carries from one render to the next: `Render(m)` then `Render(n)` leaves the state of `Render(m + n)`
(spec/43_synthesis_readout.md section 4, spec/42_sample_tick.md section 2). -/
def Obligations.RenderCarriesState : Prop :=
  ∀ (m n : Nat) (s : State), (render n (render m s).1).1 = (render (m + n) s).1

/-- A host is never refused exactly when it avoids the refused forms of R826: control bytes other than 0x34, 0x74 and
0xB4, data writes before a control write, out-of-range pokes, reserved words and bad channel indices
(spec/70_reset_and_hazards.md section 3). From any ready state, with `known` the timers whose control byte has been
accepted, every run of a list of host operations completes if and only if the list has none of those forms, raw data
writes after their control byte among the allowed ones. The entry a refused named operation is rests on log entry 19,
and the port range of operations other than pokes on log entry 21. That a RESET in the list keeps the configuration,
and with it its validity, is the model's choice (log entry 22). -/
def Obligations.SafeHostIsNeverRefused : Prop :=
  ∀ (ops : List HostOp) (s : State) (known : List TimerIx), s.Ready → s.pending = [] →
    (∀ t, t ∈ known ↔ (s.block.timerAt t).ctrl.toNat % 64 = 0x34) →
    ((∀ k, ∃ t, runSteps k (s.submit ops) = .next t) ↔ avoidsRefusal known ops = true)

/-! ## Configuration -/

/-- The noise divider period: `max(1, (chipClock div base) div 8)` with base 50, 60 or `noiseRate`; 7500 and 6250 at
the default clock (spec/44_host_protocol.md section 2). At `noiseRate` 0, where R611 refuses the configuration and the
formula would divide by zero, the value 1 of the third clause is the model's choice (log entry 23). -/
def Obligations.NoiseClockDerivation : Prop :=
  (∀ chip rate tb, Config.noiseClock ⟨chip, 0, rate, tb⟩ = max 1 (chip / 50 / 8)) ∧
  (∀ chip rate tb, Config.noiseClock ⟨chip, 1, rate, tb⟩ = max 1 (chip / 60 / 8)) ∧
  (∀ chip rate tb, Config.noiseClock ⟨chip, 2, rate, tb⟩ = max 1 (chip / rate / 8)) ∧
  Config.default.noiseClock = 7500 ∧ Config.noiseClock ⟨3000000, 1, 1, .unspecified⟩ = 6250

/-! ## Whole-machine rules -/

/-- Every step keeps the invariant: the channel registers are mirrored, a running timer is programmed and its countdown lies
in 1..32769, and the divider lies in `1..noiseClock` (spec/10_state.md section 9). It is stated from every state that
meets it, for every configuration whose period fits the divider. -/
def Obligations.StepKeepsBlockWellFormed : Prop :=
  ∀ s t : State, FitsDivider s.config → s.block.Inv s.config → step s = .next t → t.block.Inv t.config

/-- The invariant holds in the initial state of every configuration whose period fits the divider, the default one
among them (spec/10_state.md section 9). For a configuration with `clockSel` above 2, or 2 with `noiseRate` 0, the
period it speaks of is the model's choice (log entry 23). -/
def Obligations.InitialBlockWellFormed : Prop :=
  (∀ cfg : Config, FitsDivider cfg → (State.init cfg).block.Inv cfg) ∧ State.reset.block.Inv State.reset.config ∧
    State.reset.Ready

/-- No synthesis rule reads the mirror: two states that differ only in the mirror, run by one instruction other than PEEK,
complete alike, differ only in the mirror again, and deliver the same (spec/10_state.md section 3,
spec/20_memory.md section 7). -/
def Obligations.MirrorNeverReachesSynthesis : Prop :=
  ∀ (i : Instr) (s s' t : State), (∀ a, i ≠ .peek a) → s.block.EqualButMirror s'.block → s.SameHost s' →
    exec i s = .next t →
    ∃ t', exec i s' = .next t' ∧ t.block.EqualButMirror t'.block ∧ t.SameHost t'

/-- A write to an unmapped address affects no output: whatever the host does next, for any number of steps, the machine
delivers what it delivers without the write, as long as no later operation is a PEEK of that address
(spec/41_channel_writes.md section 3). -/
def Obligations.UnmappedWriteIsInaudible : Prop :=
  ∀ (i : Instr) (a : Addr) (v : Byte) (n : Nat) (s t u : State),
    (i = .wrUnmapped0407 a v ∨ i = .wrUnmapped080F a v ∨ i = .wrUnmapped181F a v) →
    exec i s = .next t → (∀ w, Request.word w ∈ s.pending → decode w ≠ .ok (.peek a)) → runSteps n s = .next u →
    ∃ u', runSteps n t = .next u' ∧ u'.received = u.received

/-- The reference noise register: from a non-zero state it never reaches 0, 0 is a fixed point, and its first advances from
the seed are those of spec/42_sample_tick.md section 3. It is a reference instance for test vectors, not a claim about
the hardware. -/
def Obligations.ReferenceNoiseSequence : Prop :=
  (∀ x : BitVec 15, lfsrStep x = 0 ↔ x = 0) ∧
  (List.range 17).map (fun n => refNoiseStep^[n + 1] refNoiseSeed) =
    [0x4000, 0x2000, 0x1000, 0x0800, 0x0400, 0x0200, 0x0100, 0x0080, 0x0040, 0x0020, 0x0010, 0x0008, 0x0004, 0x0002,
     0x4001, 0x6000, 0x3000]
end

