-- ==== Sys2Proof/Laws/Decode.lean ====
section
/-! SUPPORT. The fields of a host command word as numbers, and the WRITE words: each is its address and its byte. -/

namespace Sys2Proof

theorem opField_toNat (w : Hcw) : (opField w).toNat = w.toNat / 8192 := by
  have := w.isLt
  simp only [opField, BitVec.extractLsb'_toNat, Nat.shiftRight_eq_div_pow]
  omega

theorem addrField_toNat (w : Hcw) : (addrField w).toNat = w.toNat / 256 % 32 := by
  simp [addrField, BitVec.extractLsb'_toNat, Nat.shiftRight_eq_div_pow]

theorem dataField_toNat (w : Hcw) : (dataField w).toNat = w.toNat % 256 := by
  simp [dataField, BitVec.extractLsb'_toNat]

theorem operandField_toNat (w : Hcw) : (operandField w).toNat = w.toNat % 8192 := by
  simp [operandField, BitVec.extractLsb'_toNat]

/-- A word is its operation, address and data fields. -/
theorem word_toNat (w : Hcw) :
    w.toNat = 8192 * (opField w).toNat + 256 * (addrField w).toNat + (dataField w).toNat := by
  rw [opField_toNat, addrField_toNat, dataField_toNat]
  omega

/-- The WRITE word `000AAAAADDDDDDDD` as a number (spec/30_encoding.md R302). -/
theorem encodeWrite_toNat (a : Addr) (v : Byte) : (encodeWrite a v).toNat = 256 * a.toNat + v.toNat := by
  have := a.isLt
  have := v.isLt
  simp only [encodeWrite, BitVec.toNat_append, BitVec.toNat_ofNat, Nat.shiftLeft_eq]
  rw [← Nat.shiftLeft_eq, ← Nat.shiftLeft_add_eq_or_of_lt (by omega)]
  simp only [Nat.shiftLeft_eq]
  simp
  omega

@[simp] theorem opField_encodeWrite (a : Addr) (v : Byte) : opField (encodeWrite a v) = 0b000#3 := by
  apply BitVec.eq_of_toNat_eq
  have := a.isLt
  have := v.isLt
  rw [opField_toNat, encodeWrite_toNat, BitVec.toNat_ofNat]
  omega

@[simp] theorem addrField_encodeWrite (a : Addr) (v : Byte) : addrField (encodeWrite a v) = a := by
  apply BitVec.eq_of_toNat_eq
  have := a.isLt
  have := v.isLt
  rw [addrField_toNat, encodeWrite_toNat]
  omega

@[simp] theorem dataField_encodeWrite (a : Addr) (v : Byte) : dataField (encodeWrite a v) = v := by
  apply BitVec.eq_of_toNat_eq
  have := v.isLt
  rw [dataField_toNat, encodeWrite_toNat]
  omega

/-- Two words with the same fields are the same word. -/
theorem encodeWrite_fields {w : Hcw} (h : opField w = 0b000#3) : encodeWrite (addrField w) (dataField w) = w := by
  apply BitVec.eq_of_toNat_eq
  rw [encodeWrite_toNat, word_toNat w, h]
  simp

/-- A mask that leaves out the data byte sees the address only. -/
theorem encodeWrite_mask (a : Addr) (v : Byte) (m : Hcw) (hm : m &&& 0x00FF = 0) :
    encodeWrite a v &&& m = encodeWrite a 0 &&& m := by
  have low : ∀ i, i < 8 → m.getLsbD i = false := by
    intro i hi
    have mask : ∀ j : Fin 8, (0x00FF : Hcw).getLsbD j.val = true := by decide
    have e : (m.getLsbD i && (0x00FF : Hcw).getLsbD i) = false := by rw [← BitVec.getLsbD_and, hm]; simp
    rw [mask ⟨i, hi⟩] at e
    simpa using e
  unfold encodeWrite
  ext i hi
  simp only [BitVec.getElem_and, BitVec.getElem_append]
  split
  · have h := low i (by omega)
    rw [BitVec.getLsbD_eq_getElem hi] at h
    rw [h]
    simp
  · rfl

/-- Every WRITE word is decoded by its address (R300, R302). -/
theorem decode_encodeWrite (a : Addr) (v : Byte) : decode (encodeWrite a v) = .ok (decodeWrite a v) := by
  simp [decode]

/-- Each address is dispatched to the row of its range (R300). -/
theorem decodeWrite_cases (a : Addr) (v : Byte) :
    (∃ t : TimerIx, a = freqAddr t ∧ decodeWrite a v = .wrFreq t v) ∨
    (a = tctlAddr ∧ decodeWrite a v = .wrTctl v) ∨
    (4 ≤ a.toNat ∧ a.toNat ≤ 7 ∧ decodeWrite a v = .wrUnmapped0407 a v) ∨
    (8 ≤ a.toNat ∧ a.toNat ≤ 15 ∧ decodeWrite a v = .wrUnmapped080F a v) ∨
    (∃ c : Channel, a = volPanAddr c ∧ decodeWrite a v = .wrVolPan c v) ∨
    (∃ c : Channel, a = waveAddr c ∧ decodeWrite a v = .wrWave c v) ∨
    (24 ≤ a.toNat ∧ decodeWrite a v = .wrUnmapped181F a v) := by
  have key : ∀ a : Addr,
      (∃ t : TimerIx, a = freqAddr t ∧ ∀ v, decodeWrite a v = .wrFreq t v) ∨
      (a = tctlAddr ∧ ∀ v, decodeWrite a v = .wrTctl v) ∨
      (4 ≤ a.toNat ∧ a.toNat ≤ 7 ∧ ∀ v, decodeWrite a v = .wrUnmapped0407 a v) ∨
      (8 ≤ a.toNat ∧ a.toNat ≤ 15 ∧ ∀ v, decodeWrite a v = .wrUnmapped080F a v) ∨
      (∃ c : Channel, a = volPanAddr c ∧ ∀ v, decodeWrite a v = .wrVolPan c v) ∨
      (∃ c : Channel, a = waveAddr c ∧ ∀ v, decodeWrite a v = .wrWave c v) ∨
      (24 ≤ a.toNat ∧ ∀ v, decodeWrite a v = .wrUnmapped181F a v) := by
    intro a
    by_cases h1 : a.toNat ≤ 2
    · refine .inl ⟨⟨a.toNat, by omega⟩, BitVec.eq_of_toNat_eq (by simp [freqAddr]), fun v => ?_⟩
      have : a.toNat = 0 ∨ a.toNat = 1 ∨ a.toNat = 2 := by omega
      rcases this with h | h | h <;> simp [decodeWrite, h, Instr.wrFreq]
    by_cases h2 : a.toNat = 3
    · exact .inr (.inl ⟨BitVec.eq_of_toNat_eq h2, fun v => by simp [decodeWrite, h2]⟩)
    by_cases h3 : a.toNat ≤ 7
    · exact .inr (.inr (.inl ⟨by omega, h3, fun v => by
        simp only [decodeWrite]; rw [if_neg, if_neg, if_neg, if_neg, if_pos] <;> omega⟩))
    by_cases h4 : a.toNat ≤ 15
    · exact .inr (.inr (.inr (.inl ⟨by omega, h4, fun v => by
        simp only [decodeWrite]; rw [if_neg, if_neg, if_neg, if_neg, if_neg, if_pos] <;> omega⟩)))
    by_cases h5 : a.toNat ≤ 19
    · refine .inr (.inr (.inr (.inr (.inl ⟨channelField a, BitVec.eq_of_toNat_eq ?_, fun v => ?_⟩))))
      · simp [volPanAddr, channelField, BitVec.extractLsb'_toNat]; omega
      · simp only [decodeWrite]; rw [if_neg, if_neg, if_neg, if_neg, if_neg, if_neg, if_pos] <;> omega
    by_cases h6 : a.toNat ≤ 23
    · refine .inr (.inr (.inr (.inr (.inr (.inl ⟨channelField a, BitVec.eq_of_toNat_eq ?_, fun v => ?_⟩)))))
      · simp [waveAddr, channelField, BitVec.extractLsb'_toNat]; omega
      · simp only [decodeWrite]; rw [if_neg, if_neg, if_neg, if_neg, if_neg, if_neg, if_neg, if_pos] <;> omega
    · exact .inr (.inr (.inr (.inr (.inr (.inr ⟨by omega, fun v => by
        simp only [decodeWrite]; rw [if_neg, if_neg, if_neg, if_neg, if_neg, if_neg, if_neg, if_neg] <;> omega⟩)))))
  obtain ⟨t, h, e⟩ | ⟨h, e⟩ | ⟨h, h', e⟩ | ⟨h, h', e⟩ | ⟨c, h, e⟩ | ⟨c, h, e⟩ | ⟨h, e⟩ := key a
  · exact .inl ⟨t, h, e v⟩
  · exact .inr (.inl ⟨h, e v⟩)
  · exact .inr (.inr (.inl ⟨h, h', e v⟩))
  · exact .inr (.inr (.inr (.inl ⟨h, h', e v⟩)))
  · exact .inr (.inr (.inr (.inr (.inl ⟨c, h, e v⟩))))
  · exact .inr (.inr (.inr (.inr (.inr (.inl ⟨c, h, e v⟩)))))
  · exact .inr (.inr (.inr (.inr (.inr (.inr ⟨h, e v⟩)))))

end Sys2Proof
end

