-- ==== Sys2Proof/Laws/State.lean ====
section
/-! SUPPORT. The small lemmas of the state's updates: what each operation over the block and the state reads and leaves. -/

namespace Sys2Proof.Machine

open Sys2Proof

section accessors

variable (b : Block) (a a' : Addr) (v : Byte) (c d : Channel) (t u : TimerIx) (f : Timer → Timer) (r : RefusalReason)

@[simp] theorem Block.setMirror_volpan : (b.setMirror a v).volpan = b.volpan := rfl
@[simp] theorem Block.setMirror_wave : (b.setMirror a v).wave = b.wave := rfl
@[simp] theorem Block.setMirror_timer : (b.setMirror a v).timer = b.timer := rfl
@[simp] theorem Block.setMirror_noiseTimer : (b.setMirror a v).noiseTimer = b.noiseTimer := rfl
@[simp] theorem Block.setMirror_noise : (b.setMirror a v).noise = b.noise := rfl
@[simp] theorem Block.setMirror_refused : (b.setMirror a v).refused = b.refused := rfl
@[simp] theorem Block.setVolpan_mirror : (b.setVolpan c v).mirror = b.mirror := rfl
@[simp] theorem Block.setVolpan_wave : (b.setVolpan c v).wave = b.wave := rfl
@[simp] theorem Block.setVolpan_timer : (b.setVolpan c v).timer = b.timer := rfl
@[simp] theorem Block.setVolpan_noiseTimer : (b.setVolpan c v).noiseTimer = b.noiseTimer := rfl
@[simp] theorem Block.setVolpan_noise : (b.setVolpan c v).noise = b.noise := rfl
@[simp] theorem Block.setVolpan_refused : (b.setVolpan c v).refused = b.refused := rfl
@[simp] theorem Block.setWave_mirror : (b.setWave c v).mirror = b.mirror := rfl
@[simp] theorem Block.setWave_volpan : (b.setWave c v).volpan = b.volpan := rfl
@[simp] theorem Block.setWave_timer : (b.setWave c v).timer = b.timer := rfl
@[simp] theorem Block.setWave_noiseTimer : (b.setWave c v).noiseTimer = b.noiseTimer := rfl
@[simp] theorem Block.setWave_noise : (b.setWave c v).noise = b.noise := rfl
@[simp] theorem Block.setWave_refused : (b.setWave c v).refused = b.refused := rfl
@[simp] theorem Block.modifyTimer_mirror : (b.modifyTimer t f).mirror = b.mirror := rfl
@[simp] theorem Block.modifyTimer_volpan : (b.modifyTimer t f).volpan = b.volpan := rfl
@[simp] theorem Block.modifyTimer_wave : (b.modifyTimer t f).wave = b.wave := rfl
@[simp] theorem Block.modifyTimer_noiseTimer : (b.modifyTimer t f).noiseTimer = b.noiseTimer := rfl
@[simp] theorem Block.modifyTimer_noise : (b.modifyTimer t f).noise = b.noise := rfl
@[simp] theorem Block.modifyTimer_refused : (b.modifyTimer t f).refused = b.refused := rfl
@[simp] theorem Block.raise_mirror : (b.raise r).mirror = b.mirror := rfl
@[simp] theorem Block.raise_volpan : (b.raise r).volpan = b.volpan := rfl
@[simp] theorem Block.raise_wave : (b.raise r).wave = b.wave := rfl
@[simp] theorem Block.raise_timer : (b.raise r).timer = b.timer := rfl
@[simp] theorem Block.raise_noiseTimer : (b.raise r).noiseTimer = b.noiseTimer := rfl
@[simp] theorem Block.raise_noise : (b.raise r).noise = b.noise := rfl
@[simp] theorem Block.setMirror_volpanAt : (b.setMirror a v).volpanAt d = b.volpanAt d := rfl
@[simp] theorem Block.setMirror_waveAt : (b.setMirror a v).waveAt d = b.waveAt d := rfl
@[simp] theorem Block.setMirror_timerAt : (b.setMirror a v).timerAt u = b.timerAt u := rfl
@[simp] theorem Block.setVolpan_mirrorAt : (b.setVolpan c v).mirrorAt a' = b.mirrorAt a' := rfl
@[simp] theorem Block.setVolpan_waveAt : (b.setVolpan c v).waveAt d = b.waveAt d := rfl
@[simp] theorem Block.setVolpan_timerAt : (b.setVolpan c v).timerAt u = b.timerAt u := rfl
@[simp] theorem Block.setWave_mirrorAt : (b.setWave c v).mirrorAt a' = b.mirrorAt a' := rfl
@[simp] theorem Block.setWave_volpanAt : (b.setWave c v).volpanAt d = b.volpanAt d := rfl
@[simp] theorem Block.setWave_timerAt : (b.setWave c v).timerAt u = b.timerAt u := rfl
@[simp] theorem Block.modifyTimer_mirrorAt : (b.modifyTimer t f).mirrorAt a' = b.mirrorAt a' := rfl
@[simp] theorem Block.modifyTimer_volpanAt : (b.modifyTimer t f).volpanAt d = b.volpanAt d := rfl
@[simp] theorem Block.modifyTimer_waveAt : (b.modifyTimer t f).waveAt d = b.waveAt d := rfl
@[simp] theorem Block.raise_mirrorAt : (b.raise r).mirrorAt a' = b.mirrorAt a' := rfl
@[simp] theorem Block.raise_volpanAt : (b.raise r).volpanAt d = b.volpanAt d := rfl
@[simp] theorem Block.raise_waveAt : (b.raise r).waveAt d = b.waveAt d := rfl
@[simp] theorem Block.raise_timerAt : (b.raise r).timerAt u = b.timerAt u := rfl

@[simp] theorem Block.raise_refused : (b.raise r).refused = some (b.refused.getD r) := rfl

/-- A register reads back from the mirror as it was last written. -/
@[simp] theorem Block.setMirror_mirrorAt_same : (b.setMirror a v).mirrorAt a = v := by
  simp [Block.setMirror, Block.mirrorAt]

theorem Block.setMirror_mirrorAt_ne (h : a' ≠ a) : (b.setMirror a v).mirrorAt a' = b.mirrorAt a' := by
  have h' : a.toNat ≠ a'.toNat := fun e => h (BitVec.eq_of_toNat_eq e.symm)
  simp only [Block.setMirror, Block.mirrorAt]
  exact Vector.getElem_set_ne _ _ h'

theorem Block.setMirror_mirrorAt : (b.setMirror a v).mirrorAt a' = if a' = a then v else b.mirrorAt a' := by
  split
  · subst a'; simp
  · exact Block.setMirror_mirrorAt_ne b a a' v ‹_›

@[simp] theorem Block.setVolpan_volpanAt_same : (b.setVolpan c v).volpanAt c = v := by
  simp [Block.setVolpan, Block.volpanAt]

theorem Block.setVolpan_volpanAt_ne (h : d ≠ c) : (b.setVolpan c v).volpanAt d = b.volpanAt d := by
  have h' : c.val ≠ d.val := fun e => h (Fin.ext e.symm)
  simp only [Block.setVolpan, Block.volpanAt]
  exact Vector.getElem_set_ne _ _ h'

@[simp] theorem Block.setWave_waveAt_same : (b.setWave c v).waveAt c = v := by
  simp [Block.setWave, Block.waveAt]

theorem Block.setWave_waveAt_ne (h : d ≠ c) : (b.setWave c v).waveAt d = b.waveAt d := by
  have h' : c.val ≠ d.val := fun e => h (Fin.ext e.symm)
  simp only [Block.setWave, Block.waveAt]
  exact Vector.getElem_set_ne _ _ h'

@[simp] theorem Block.modifyTimer_timerAt_same : (b.modifyTimer t f).timerAt t = f (b.timerAt t) := by
  simp [Block.modifyTimer, Block.timerAt]

theorem Block.modifyTimer_timerAt_ne (h : u ≠ t) : (b.modifyTimer t f).timerAt u = b.timerAt u := by
  have h' : t.val ≠ u.val := fun e => h (Fin.ext e.symm)
  simp only [Block.modifyTimer, Block.timerAt]
  exact Vector.getElem_set_ne _ _ h'

theorem Block.modifyTimer_timerAt :
    (b.modifyTimer t f).timerAt u = if u = t then f (b.timerAt u) else b.timerAt u := by
  split
  · subst u; simp
  · exact Block.modifyTimer_timerAt_ne b t u f ‹_›

end accessors

section reset

variable (cfg : Config) (b : Block) (a : Addr) (c : Channel) (t : TimerIx)

@[simp] theorem Block.reset_mirrorAt : (Block.reset cfg).mirrorAt a = 0 := by
  simp [Block.reset, Block.mirrorAt]
@[simp] theorem Block.reset_volpanAt : (Block.reset cfg).volpanAt c = 0 := by
  simp [Block.reset, Block.volpanAt]
@[simp] theorem Block.reset_waveAt : (Block.reset cfg).waveAt c = 0 := by
  simp [Block.reset, Block.waveAt]
@[simp] theorem Block.reset_timerAt : (Block.reset cfg).timerAt t = Timer.reset := by
  simp [Block.reset, Block.timerAt]
@[simp] theorem Block.reset_noiseTimer : (Block.reset cfg).noiseTimer = cfg.dividerStart := rfl
@[simp] theorem Block.reset_noise : (Block.reset cfg).noise = cfg.noiseSeed := rfl
@[simp] theorem Block.reset_refused : (Block.reset cfg).refused = none := rfl
@[simp] theorem Block.doReset_mirrorAt : (b.doReset cfg).mirrorAt a = 0 := Block.reset_mirrorAt cfg a
@[simp] theorem Block.doReset_volpanAt : (b.doReset cfg).volpanAt c = 0 := Block.reset_volpanAt cfg c
@[simp] theorem Block.doReset_waveAt : (b.doReset cfg).waveAt c = 0 := Block.reset_waveAt cfg c
@[simp] theorem Block.doReset_timerAt : (b.doReset cfg).timerAt t = Timer.reset := Block.reset_timerAt cfg t
@[simp] theorem Block.doReset_noiseTimer : (b.doReset cfg).noiseTimer = cfg.dividerStart := rfl
@[simp] theorem Block.doReset_noise : (b.doReset cfg).noise = cfg.noiseSeed := rfl
@[simp] theorem Block.doReset_refused : (b.doReset cfg).refused = b.refused := rfl

end reset

section state

variable (s : State) (f : Block → Block) (e : Emission) (r : RefusalReason) (w : Hcw)

@[simp] theorem State.onBlock_config : (s.onBlock f).config = s.config := rfl
@[simp] theorem State.onBlock_block : (s.onBlock f).block = f s.block := rfl
@[simp] theorem State.onBlock_pending : (s.onBlock f).pending = s.pending := rfl
@[simp] theorem State.onBlock_pos : (s.onBlock f).pos = s.pos := rfl
@[simp] theorem State.onBlock_received : (s.onBlock f).received = s.received := rfl
@[simp] theorem State.emit_config : (s.emit e).config = s.config := rfl
@[simp] theorem State.emit_block : (s.emit e).block = s.block := rfl
@[simp] theorem State.emit_pending : (s.emit e).pending = s.pending := rfl
@[simp] theorem State.emit_pos : (s.emit e).pos = s.pos := rfl
@[simp] theorem State.emit_received : (s.emit e).received = s.received ++ [e] := rfl
@[simp] theorem State.raise_config : (s.raise r).config = s.config := rfl
@[simp] theorem State.raise_block : (s.raise r).block = s.block.raise r := rfl
@[simp] theorem State.raise_pending : (s.raise r).pending = s.pending := rfl
@[simp] theorem State.raise_pos : (s.raise r).pos = s.pos := rfl
@[simp] theorem State.raise_received : (s.raise r).received = s.received := rfl
@[simp] theorem State.advance_config : (s.advance).config = s.config := rfl
@[simp] theorem State.advance_block : (s.advance).block = s.block := rfl
@[simp] theorem State.advance_pending : (s.advance).pending = s.pending.tail := rfl
@[simp] theorem State.advance_pos : (s.advance).pos = s.pos + 1 := rfl
@[simp] theorem State.advance_received : (s.advance).received = s.received := rfl
@[simp] theorem State.placeWord_config : (s.placeWord w).config = s.config := rfl
@[simp] theorem State.placeWord_block : (s.placeWord w).block = s.block := rfl
@[simp] theorem State.placeWord_pending : (s.placeWord w).pending = .word w :: s.pending.tail := rfl
@[simp] theorem State.placeWord_pos : (s.placeWord w).pos = s.pos := rfl
@[simp] theorem State.placeWord_received : (s.placeWord w).received = s.received := rfl

@[simp] theorem State.fetch_placeWord : (s.placeWord w).fetch = some (.word w) := rfl

end state

section registers

/-- Two mirrors are equal when every address reads the same. -/
theorem Block.mirror_ext {b b' : Block} (h : ∀ a, b'.mirrorAt a = b.mirrorAt a) : b'.mirror = b.mirror :=
  Vector.ext fun i hi => by
    have := h (BitVec.ofNat 5 i)
    have hi' : i % 32 = i := Nat.mod_eq_of_lt hi
    simpa [Block.mirrorAt, BitVec.toNat_ofNat, hi'] using this

/-- Two timer banks are equal when every timer is. -/
theorem Block.timer_ext {b b' : Block} (h : ∀ t, b'.timerAt t = b.timerAt t) : b'.timer = b.timer :=
  Vector.ext fun i hi => h ⟨i, hi⟩

end registers

end Sys2Proof.Machine
end

