-- ==== Sys2Proof/Laws/Ops.lean ====
section
/-! SUPPORT. What the shared operations can do, said once: `conclude`, `perform`, `writeRegister`, `exec` and `step`. -/

namespace Sys2Proof.Machine

open Sys2Proof

theorem conclude_of_unmarked {s : State} (h : s.block.refused = none) : conclude s = .next s := by
  simp [conclude, h]

theorem conclude_of_marked {s : State} {r : RefusalReason} (h : s.block.refused = some r) :
    conclude s = .refused (.raised r s) := by
  simp [conclude, h]

/-- `conclude` answers a next state only for an unmarked state, and then that state. -/
theorem conclude_eq_next {s t : State} : conclude s = .next t ↔ t = s ∧ s.block.refused = none := by
  unfold conclude
  split <;> simp_all [eq_comm]

/-- `conclude` answers a refusal only for a marked state, and leaves that state. -/
theorem conclude_eq_refused {s : State} {x : Refusal} :
    conclude s = .refused x ↔ ∃ r, s.block.refused = some r ∧ x = .raised r s := by
  unfold conclude
  split <;> simp_all [eq_comm]

theorem conclude_ne_fault (s : State) (x : Fault) : conclude s ≠ .fault x := nomatch x

theorem perform_of_ready {s : State} {effect : State → State} (hv : s.config.valid = true)
    (h : (effect s).block.refused = none) : perform s effect = .next (effect s) := by
  simp [perform, hv, conclude_of_unmarked h]

/-- An operation answers a next state only under a valid configuration, and then what its effect leaves, unmarked. -/
theorem perform_eq_next {s t : State} {effect : State → State} :
    perform s effect = .next t ↔ s.config.valid = true ∧ t = effect s ∧ (effect s).block.refused = none := by
  unfold perform
  split
  · simp_all [conclude_eq_next]
  · simp_all [conclude_eq_next]

/-- Under a valid configuration an operation refuses only with the mark its effect leaves. -/
theorem perform_of_marked {s : State} {effect : State → State} {r : RefusalReason} (hv : s.config.valid = true)
    (h : (effect s).block.refused = some r) : perform s effect = .refused (.raised r (effect s)) := by
  simp [perform, hv, conclude_of_marked h]

/-- Under an invalid configuration every operation is refused with the mark of the state, `BadConfig` if it has none. -/
theorem perform_of_invalid {s : State} {effect : State → State} (hv : s.config.valid = false) :
    perform s effect = .refused (.raised (s.block.refused.getD .badConfig) (s.raise .badConfig)) := by
  simp [perform, hv, conclude]

/-- The effect of an instruction on a state in which it has a meaning; `exec` performs it. -/
def effectOf (i : Instr) : State → State :=
  match i with
  | .wrFreq0 v => (·.onBlock fun b => (b.setMirror (freqAddr 0) v).dataWrite 0 v)
  | .wrFreq1 v => (·.onBlock fun b => (b.setMirror (freqAddr 1) v).dataWrite 1 v)
  | .wrFreq2 v => (·.onBlock fun b => (b.setMirror (freqAddr 2) v).dataWrite 2 v)
  | .wrTctl v => (·.onBlock fun b => (b.setMirror tctlAddr v).ctrlWrite v)
  | .wrUnmapped0407 a v => (·.onBlock fun b => b.setMirror a v)
  | .wrUnmapped080F a v => (·.onBlock fun b => b.setMirror a v)
  | .wrVolPan c v => (·.onBlock fun b => (b.setMirror (volPanAddr c) v).setVolpan c v)
  | .wrWave c v => (·.onBlock fun b => (b.setMirror (waveAddr c) v).setWave c v)
  | .wrUnmapped181F a v => (·.onBlock fun b => b.setMirror a v)
  | .tick => fun s => (s.onBlock (·.tick s.config)).emit (.record ((s.block.tick s.config).outputRecord s.config))
  | .reset => fun s => s.onBlock (·.doReset s.config)
  | .peek a => fun s => s.emit (.byte (s.block.mirrorAt a))

/-- Every instruction is performed: it completes with its effect, or is refused. -/
theorem exec_eq_perform (i : Instr) (s : State) : exec i s = perform s (effectOf i) := by
  cases i <;> rfl

theorem exec_wrFreq (t : TimerIx) (v : Byte) (s : State) :
    exec (.wrFreq t v) s = perform s (·.onBlock fun b => (b.setMirror (freqAddr t) v).dataWrite t v) := by
  match t with
  | 0 => rfl
  | 1 => rfl
  | 2 => rfl

/-- A step on a word that decodes runs its instruction, with the request taken off the list. -/
theorem step_of_decode {s : State} {w : Hcw} {i : Instr} (hf : s.fetch = some (.word w)) (hd : decode w = .ok i) :
    step s = exec i s.advance := by
  simp [step, hf, runRequest, runWord, hd]

theorem step_of_reserved {s : State} {w : Hcw} {e : DecodeError} (hf : s.fetch = some (.word w))
    (hd : decode w = .error e) : step s = perform s.advance (·.raise .reservedCommand) := by
  simp [step, hf, runRequest, runWord, hd]

theorem step_of_refuse {s : State} {r : RefusalReason} (hf : s.fetch = some (.refuse r)) :
    step s = perform s.advance (·.raise r) := by
  simp [step, hf, runRequest]

theorem step_of_empty {s : State} (hf : s.fetch = none) : step s = perform s id := by
  simp [step, hf, idle]

/-- Every step performs some effect on the state with its request taken: the instruction's, a refusal, or none. -/
theorem step_cases (s : State) :
    (∃ w i, s.fetch = some (.word w) ∧ decode w = .ok i ∧ step s = exec i s.advance) ∨
    (∃ w e, s.fetch = some (.word w) ∧ decode w = .error e ∧ step s = perform s.advance (·.raise .reservedCommand)) ∨
    (∃ r, s.fetch = some (.refuse r) ∧ step s = perform s.advance (·.raise r)) ∨
    (s.fetch = none ∧ step s = perform s id) := by
  cases hf : s.fetch with
  | none => exact .inr (.inr (.inr ⟨rfl, step_of_empty hf⟩))
  | some r =>
    cases r with
    | refuse r => exact .inr (.inr (.inl ⟨r, rfl, step_of_refuse hf⟩))
    | word w =>
      cases hd : decode w with
      | ok i => exact .inl ⟨w, i, rfl, hd, step_of_decode hf hd⟩
      | error e => exact .inr (.inl ⟨w, e, rfl, hd, step_of_reserved hf hd⟩)

/-- A step that answers a next state ran an instruction's effect, or was idle; a refusal never does. -/
theorem step_next_cases {s t : State} (h : step s = .next t) :
    s.config.valid = true ∧ t.block.refused = none ∧
      ((∃ w i, s.fetch = some (.word w) ∧ decode w = .ok i ∧ t = effectOf i s.advance) ∨ (s.fetch = none ∧ t = s)) := by
  obtain ⟨w, i, hf, hd, he⟩ | ⟨w, e, hf, hd, he⟩ | ⟨r, hf, he⟩ | ⟨hf, he⟩ := step_cases s
  · rw [he, exec_eq_perform, perform_eq_next] at h
    obtain ⟨hv, rfl, hr⟩ := h
    exact ⟨hv, hr, .inl ⟨w, i, hf, hd, rfl⟩⟩
  · rw [he, perform_eq_next] at h
    simp at h
  · rw [he, perform_eq_next] at h
    simp at h
  · rw [he, perform_eq_next] at h
    obtain ⟨hv, rfl, hr⟩ := h
    exact ⟨hv, hr, .inr ⟨hf, rfl⟩⟩

end Sys2Proof.Machine
end

