-- ==== Sys2Proof/Laws/PerInstr.lean ====
section
/-! SUPPORT. The families of statements made for every instruction. -/

/-! `RowWord`: the word of a well-formed instruction lies in its own row of the opcode map (spec/30_encoding.md R308). -/

namespace Sys2Proof.Laws.RowWord

/-- The instruction's word matches the pattern of its row under the row's mask. -/
def Statement (i : Instr) : Prop :=
  i.WellFormed → ∃ r ∈ opcodeRows, r.mnemonic = i.mnemonic ∧ r.covers (encode i) = true

/-- A WRITE word matches a row whose mask leaves out the data byte when its address does. -/
theorem covers_write {r : OpcodeRow} {a : Addr} (v : Byte) (hm : r.mask &&& 0x00FF = 0)
    (h : r.covers (encodeWrite a 0) = true) : r.covers (encodeWrite a v) = true := by
  unfold OpcodeRow.covers at h ⊢
  rw [encodeWrite_mask a v r.mask hm]
  exact h

theorem wrFreq0 (v : Byte) : Statement (.wrFreq0 v) := fun _ =>
  ⟨⟨"WR_FREQ0", 0x0000, 0xFF00⟩, by decide, rfl, covers_write v (by decide) (by decide)⟩

theorem wrFreq1 (v : Byte) : Statement (.wrFreq1 v) := fun _ =>
  ⟨⟨"WR_FREQ1", 0x0100, 0xFF00⟩, by decide, rfl, covers_write v (by decide) (by decide)⟩

theorem wrFreq2 (v : Byte) : Statement (.wrFreq2 v) := fun _ =>
  ⟨⟨"WR_FREQ2", 0x0200, 0xFF00⟩, by decide, rfl, covers_write v (by decide) (by decide)⟩

theorem wrTctl (v : Byte) : Statement (.wrTctl v) := fun _ =>
  ⟨⟨"WR_TCTL", 0x0300, 0xFF00⟩, by decide, rfl, covers_write v (by decide) (by decide)⟩

theorem wrUnmapped0407 (a : Addr) (v : Byte) : Statement (.wrUnmapped0407 a v) := fun hw => by
  have key : ∀ a : Addr, 0x04 ≤ a.toNat ∧ a.toNat ≤ 0x07 →
      OpcodeRow.covers ⟨"WR_UNMAPPED_04_07", 0x0400, 0xFC00⟩ (encodeWrite a 0) = true := by decide
  exact ⟨⟨"WR_UNMAPPED_04_07", 0x0400, 0xFC00⟩, by decide, rfl,
    covers_write v (by decide) (key a (of_decide_eq_true hw))⟩

theorem wrUnmapped080F (a : Addr) (v : Byte) : Statement (.wrUnmapped080F a v) := fun hw => by
  have key : ∀ a : Addr, 0x08 ≤ a.toNat ∧ a.toNat ≤ 0x0F →
      OpcodeRow.covers ⟨"WR_UNMAPPED_08_0F", 0x0800, 0xF800⟩ (encodeWrite a 0) = true := by decide
  exact ⟨⟨"WR_UNMAPPED_08_0F", 0x0800, 0xF800⟩, by decide, rfl,
    covers_write v (by decide) (key a (of_decide_eq_true hw))⟩

theorem wrVolPan (c : Channel) (v : Byte) : Statement (.wrVolPan c v) := fun _ => by
  have key : ∀ c : Channel, OpcodeRow.covers ⟨"WR_VOLPAN", 0x1000, 0xFC00⟩ (encodeWrite (volPanAddr c) 0) = true := by
    decide
  exact ⟨⟨"WR_VOLPAN", 0x1000, 0xFC00⟩, by decide, rfl, covers_write v (by decide) (key c)⟩

theorem wrWave (c : Channel) (v : Byte) : Statement (.wrWave c v) := fun _ => by
  have key : ∀ c : Channel, OpcodeRow.covers ⟨"WR_WAVE", 0x1400, 0xFC00⟩ (encodeWrite (waveAddr c) 0) = true := by
    decide
  exact ⟨⟨"WR_WAVE", 0x1400, 0xFC00⟩, by decide, rfl, covers_write v (by decide) (key c)⟩

theorem wrUnmapped181F (a : Addr) (v : Byte) : Statement (.wrUnmapped181F a v) := fun hw => by
  have key : ∀ a : Addr, 0x18 ≤ a.toNat ∧ a.toNat ≤ 0x1F →
      OpcodeRow.covers ⟨"WR_UNMAPPED_18_1F", 0x1800, 0xF800⟩ (encodeWrite a 0) = true := by decide
  exact ⟨⟨"WR_UNMAPPED_18_1F", 0x1800, 0xF800⟩, by decide, rfl,
    covers_write v (by decide) (key a (of_decide_eq_true hw))⟩

theorem tick : Statement .tick := fun _ => ⟨⟨"TICK", 0x2000, 0xFFFF⟩, by decide, rfl, by decide⟩

theorem reset : Statement .reset := fun _ => ⟨⟨"RESET", 0x4000, 0xFFFF⟩, by decide, rfl, by decide⟩

theorem peek (a : Addr) : Statement (.peek a) := fun _ => by
  have key : ∀ a : Addr, OpcodeRow.covers ⟨"PEEK", 0x6000, 0xE0FF⟩ (encode (.peek a)) = true := by decide
  exact ⟨⟨"PEEK", 0x6000, 0xE0FF⟩, by decide, rfl, key a⟩

end Sys2Proof.Laws.RowWord
end

