-- ==== Sys2Proof/Laws/Timers.lean ====
section
/-! SUPPORT. The timer writes and the timer step: which timer they touch and what they leave. -/

namespace Sys2Proof.Machine

open Sys2Proof

/-- The control byte of timer `t` selects timer `t`, in the square-wave mode. -/
@[simp] theorem selectedTimer_controlByte (t : TimerIx) : selectedTimer (controlByte t) = some t := by
  revert t; decide

@[simp] theorem modeBits_controlByte (t : TimerIx) : modeBits (controlByte t) = squareWaveMode := by
  revert t; decide

/-- The accepted control bytes are exactly those of the three timers. -/
theorem accepted_control_iff (v : Byte) (t : TimerIx) :
    selectedTimer v = some t ∧ modeBits v = squareWaveMode ↔ v = controlByte t := by
  revert v t; decide

theorem phaseLen_pos (r : BitVec 16) (o : Bool) : 1 ≤ phaseLen r o := by
  unfold phaseLen countingLength
  have := r.isLt
  split <;> split
  · omega
  · have : r.toNat ≠ 0 := fun e => ‹¬r = 0› (BitVec.eq_of_toNat_eq e)
    omega
  · omega
  · omega

theorem phaseLen_le (r : BitVec 16) (o : Bool) : phaseLen r o ≤ 32768 := by
  unfold phaseLen countingLength
  have := r.isLt
  split <;> split <;> omega

/-- A control write touches one timer, or raises a refusal; it touches nothing else of the block. -/
theorem Block.ctrlWrite_cases (b : Block) (v : Byte) :
    (∃ t, v = controlByte t ∧ b.ctrlWrite v = b.modifyTimer t (·.control v)) ∨
    ((∀ t, v ≠ controlByte t) ∧ ∃ r, b.ctrlWrite v = b.raise r) := by
  unfold Block.ctrlWrite
  cases hs : selectedTimer v with
  | none =>
    refine .inr ⟨fun t e => ?_, _, rfl⟩
    subst e
    simp at hs
  | some t =>
    by_cases hm : modeBits v = squareWaveMode
    · exact .inl ⟨t, (accepted_control_iff v t).mp ⟨hs, hm⟩, by simp [hm]⟩
    · refine .inr ⟨fun u e => ?_, .ctrlMode v, by simp [hm]⟩
      subst e
      simp at hm

theorem Timer.dataByte_low {tm : Timer} (h : tm.hiNext = false) (v : Byte) : tm.dataByte v = tm.lowByte v := by
  simp [Timer.dataByte, h]

theorem Timer.dataByte_high {tm : Timer} (h : tm.hiNext = true) (v : Byte) : tm.dataByte v = tm.highByte v := by
  simp [Timer.dataByte, h]

/-- A data write touches its timer, or raises a refusal. -/
theorem Block.dataWrite_cases (b : Block) (t : TimerIx) (v : Byte) :
    ((b.timerAt t).Programmed ∧ b.dataWrite t v = b.modifyTimer t (·.dataByte v)) ∨
    (¬(b.timerAt t).Programmed ∧ b.dataWrite t v = b.raise (.dataBeforeCtrl t)) := by
  unfold Block.dataWrite
  split
  · exact .inl ⟨‹_›, rfl⟩
  · exact .inr ⟨‹_›, rfl⟩

section fields

variable (b : Block) (t : TimerIx) (v : Byte) (a : Addr) (c : Channel)

@[simp] theorem Block.ctrlWrite_mirror : (b.ctrlWrite v).mirror = b.mirror := by
  obtain ⟨t, -, h⟩ | ⟨-, r, h⟩ := b.ctrlWrite_cases v <;> simp [h]
@[simp] theorem Block.ctrlWrite_volpan : (b.ctrlWrite v).volpan = b.volpan := by
  obtain ⟨t, -, h⟩ | ⟨-, r, h⟩ := b.ctrlWrite_cases v <;> simp [h]
@[simp] theorem Block.ctrlWrite_wave : (b.ctrlWrite v).wave = b.wave := by
  obtain ⟨t, -, h⟩ | ⟨-, r, h⟩ := b.ctrlWrite_cases v <;> simp [h]
@[simp] theorem Block.ctrlWrite_noiseTimer : (b.ctrlWrite v).noiseTimer = b.noiseTimer := by
  obtain ⟨t, -, h⟩ | ⟨-, r, h⟩ := b.ctrlWrite_cases v <;> simp [h]
@[simp] theorem Block.ctrlWrite_noise : (b.ctrlWrite v).noise = b.noise := by
  obtain ⟨t, -, h⟩ | ⟨-, r, h⟩ := b.ctrlWrite_cases v <;> simp [h]
@[simp] theorem Block.dataWrite_mirror : (b.dataWrite t v).mirror = b.mirror := by
  obtain ⟨-, h⟩ | ⟨-, h⟩ := b.dataWrite_cases t v <;> simp [h]
@[simp] theorem Block.dataWrite_volpan : (b.dataWrite t v).volpan = b.volpan := by
  obtain ⟨-, h⟩ | ⟨-, h⟩ := b.dataWrite_cases t v <;> simp [h]
@[simp] theorem Block.dataWrite_wave : (b.dataWrite t v).wave = b.wave := by
  obtain ⟨-, h⟩ | ⟨-, h⟩ := b.dataWrite_cases t v <;> simp [h]
@[simp] theorem Block.dataWrite_noiseTimer : (b.dataWrite t v).noiseTimer = b.noiseTimer := by
  obtain ⟨-, h⟩ | ⟨-, h⟩ := b.dataWrite_cases t v <;> simp [h]
@[simp] theorem Block.dataWrite_noise : (b.dataWrite t v).noise = b.noise := by
  obtain ⟨-, h⟩ | ⟨-, h⟩ := b.dataWrite_cases t v <;> simp [h]

end fields

/-- A write that ends unmarked began unmarked. -/
theorem Block.ctrlWrite_unmarked {b : Block} {v : Byte} (h : (b.ctrlWrite v).refused = none) :
    b.refused = none ∧ ∃ t, v = controlByte t ∧ b.ctrlWrite v = b.modifyTimer t (·.control v) := by
  obtain ⟨t, hv, e⟩ | ⟨-, r, e⟩ := b.ctrlWrite_cases v
  · rw [e] at h
    exact ⟨by simpa using h, t, hv, e⟩
  · rw [e] at h
    simp at h

theorem Block.dataWrite_unmarked {b : Block} {t : TimerIx} {v : Byte} (h : (b.dataWrite t v).refused = none) :
    b.refused = none ∧ (b.timerAt t).Programmed ∧ b.dataWrite t v = b.modifyTimer t (·.dataByte v) := by
  obtain ⟨hp, e⟩ | ⟨-, e⟩ := b.dataWrite_cases t v
  · rw [e] at h
    exact ⟨by simpa using h, hp, e⟩
  · rw [e] at h
    simp at h

/-- A high byte never overflows the 16-bit countdown. -/
theorem Timer.highByte_count (tm : Timer) (v : Byte) :
    (tm.highByte v).count.toNat = phaseLen (assembleReload v tm.latch) tm.out + 1 := by
  have := phaseLen_le (assembleReload v tm.latch) tm.out
  simp only [Timer.highByte, BitVec.toNat_ofNat]
  exact Nat.mod_eq_of_lt (by omega)

/-- The three cases of a timer step (R501, R502). -/
theorem Timer.step_stopped {tm : Timer} (h : tm.running = false) : tm.step = tm := by simp [Timer.step, h]

theorem Timer.step_counting {tm : Timer} (h : tm.running = true) (hc : tm.count ≠ 1) :
    tm.step = { tm with count := tm.count - 1 } := by
  have : tm.count - 1 ≠ 0 := by
    intro e; apply hc; bv_omega
  rw [Timer.step, if_pos h, if_neg this]

theorem Timer.step_terminal {tm : Timer} (h : tm.running = true) (hc : tm.count = 1) :
    tm.step = { tm with out := !tm.out, count := BitVec.ofNat 16 (phaseLen tm.reload (!tm.out)) } := by
  simp [Timer.step, h, hc, Timer.endPhase, Timer.flipOut]

/-- A timer step leaves the programmed fields alone. -/
theorem Timer.step_keeps (tm : Timer) :
    tm.step.ctrl = tm.ctrl ∧ tm.step.reload = tm.reload ∧ tm.step.latch = tm.latch ∧ tm.step.hiNext = tm.hiNext ∧
      tm.step.running = tm.running := by
  unfold Timer.step
  split
  · split <;> simp [Timer.endPhase, Timer.flipOut]
  · simp

end Sys2Proof.Machine
end

