-- ==== Sys2Proof/Laws/Tick.lean ====
section
/-! SUPPORT. The tick: what each of its steps touches, and what an expiry of the noise divider does. -/

namespace Sys2Proof.Machine

open Sys2Proof

section timers

variable (b : Block) (a : Addr) (c : Channel) (t : TimerIx)

/-- Each timer takes exactly one step of its own. -/
@[simp] theorem Block.timersStep_timerAt : b.timersStep.timerAt t = (b.timerAt t).step := by
  unfold Block.timersStep
  match t with
  | 0 => simp [Block.modifyTimer_timerAt]
  | 1 => simp [Block.modifyTimer_timerAt]
  | 2 => simp [Block.modifyTimer_timerAt]

@[simp] theorem Block.timersStep_mirror : b.timersStep.mirror = b.mirror := rfl
@[simp] theorem Block.timersStep_volpan : b.timersStep.volpan = b.volpan := rfl
@[simp] theorem Block.timersStep_wave : b.timersStep.wave = b.wave := rfl
@[simp] theorem Block.timersStep_noiseTimer : b.timersStep.noiseTimer = b.noiseTimer := rfl
@[simp] theorem Block.timersStep_noise : b.timersStep.noise = b.noise := rfl
@[simp] theorem Block.timersStep_refused : b.timersStep.refused = b.refused := rfl

end timers

section divider

variable (cfg : Config) (b : Block) (t : TimerIx) (a : Addr) (c : Channel)

/-- The divider has not expired: it counts down (R510). -/
theorem Block.noiseDividerStep_counting {cfg : Config} {b : Block} (h : b.noiseTimer ≠ 1) :
    b.noiseDividerStep cfg = { b with noiseTimer := b.noiseTimer - 1 } := by
  have : b.noiseTimer - 1 ≠ 0 := by
    intro e; apply h; bv_omega
  rw [Block.noiseDividerStep, if_neg this]

/-- The divider expires: one advance, and it starts again (R510). -/
theorem Block.noiseDividerStep_expiry {cfg : Config} {b : Block} (h : b.noiseTimer = 1) :
    b.noiseDividerStep cfg = { b with noise := cfg.noiseStep b.noise, noiseTimer := cfg.dividerStart } := by
  simp [Block.noiseDividerStep, h, Block.noiseAdvance]

@[simp] theorem Block.noiseDividerStep_mirror : (b.noiseDividerStep cfg).mirror = b.mirror := by
  unfold Block.noiseDividerStep; split <;> rfl
@[simp] theorem Block.noiseDividerStep_volpan : (b.noiseDividerStep cfg).volpan = b.volpan := by
  unfold Block.noiseDividerStep; split <;> rfl
@[simp] theorem Block.noiseDividerStep_wave : (b.noiseDividerStep cfg).wave = b.wave := by
  unfold Block.noiseDividerStep; split <;> rfl
@[simp] theorem Block.noiseDividerStep_timer : (b.noiseDividerStep cfg).timer = b.timer := by
  unfold Block.noiseDividerStep; split <;> rfl
@[simp] theorem Block.noiseDividerStep_timerAt : (b.noiseDividerStep cfg).timerAt t = b.timerAt t := by
  unfold Block.noiseDividerStep; split <;> rfl
@[simp] theorem Block.noiseDividerStep_refused : (b.noiseDividerStep cfg).refused = b.refused := by
  unfold Block.noiseDividerStep; split <;> rfl

@[simp] theorem Block.tick_mirror : (b.tick cfg).mirror = b.mirror := by simp [Block.tick]
@[simp] theorem Block.tick_volpan : (b.tick cfg).volpan = b.volpan := by simp [Block.tick]
@[simp] theorem Block.tick_wave : (b.tick cfg).wave = b.wave := by simp [Block.tick]
@[simp] theorem Block.tick_refused : (b.tick cfg).refused = b.refused := by simp [Block.tick]
@[simp] theorem Block.tick_timerAt : (b.tick cfg).timerAt t = (b.timerAt t).step := by simp [Block.tick]
@[simp] theorem Block.tick_mirrorAt : (b.tick cfg).mirrorAt a = b.mirrorAt a := by simp [Block.mirrorAt]
@[simp] theorem Block.tick_volpanAt : (b.tick cfg).volpanAt c = b.volpanAt c := by simp [Block.volpanAt]
@[simp] theorem Block.tick_waveAt : (b.tick cfg).waveAt c = b.waveAt c := by simp [Block.waveAt]

end divider

/-- A period that fits 32 bits is what the divider holds. -/
theorem dividerStart_toNat {cfg : Config} (h : FitsDivider cfg) : cfg.dividerStart.toNat = cfg.noiseClock := by
  rw [Config.dividerStart, if_pos h, BitVec.toNat_ofNat, Nat.mod_eq_of_lt h]

theorem noiseClock_pos (cfg : Config) : 1 ≤ cfg.noiseClock := Nat.le_max_left _ _

/-- No instruction clears the refusal mark: an effect that ends unmarked began unmarked (spec/10_state.md R140). -/
theorem effectOf_unmarked {i : Instr} {s : State} (h : (effectOf i s).block.refused = none) :
    s.block.refused = none := by
  cases i with
  | wrFreq0 v => exact (Block.dataWrite_unmarked (b := s.block.setMirror _ v) h).1
  | wrFreq1 v => exact (Block.dataWrite_unmarked (b := s.block.setMirror _ v) h).1
  | wrFreq2 v => exact (Block.dataWrite_unmarked (b := s.block.setMirror _ v) h).1
  | wrTctl v => exact (Block.ctrlWrite_unmarked (b := s.block.setMirror _ v) h).1
  | tick => simpa [effectOf] using h
  | _ => exact h

/-- No instruction touches the configuration, the host's list or the position. -/
theorem effectOf_keeps (i : Instr) (s : State) :
    (effectOf i s).config = s.config ∧ (effectOf i s).pending = s.pending ∧ (effectOf i s).pos = s.pos := by
  cases i <;> exact ⟨rfl, rfl, rfl⟩

end Sys2Proof.Machine
end

