-- ==== Sys2Proof/Laws/Run.lean ====
section
/-! SUPPORT. Runs of several steps: how they compose, what every step of a run keeps, and when a run idles. -/

namespace Sys2Proof.Machine

open Sys2Proof

@[simp] theorem runSteps_zero (s : State) : runSteps 0 s = .next s := rfl

theorem runSteps_succ {k : Nat} {s t : State} (h : step s = .next t) : runSteps (k + 1) s = runSteps k t := by
  rw [runSteps, h]

/-- A run of one step more that completes began with a step that completed. -/
theorem runSteps_succ_eq_next {k : Nat} {s u : State} :
    runSteps (k + 1) s = .next u ↔ ∃ t, step s = .next t ∧ runSteps k t = .next u := by
  rw [runSteps]
  cases step s <;> simp

theorem runSteps_add {j k : Nat} {s t : State} (h : runSteps j s = .next t) : runSteps (j + k) s = runSteps k t := by
  induction j generalizing s with
  | zero => cases h; rw [Nat.zero_add]
  | succ j ih =>
    obtain ⟨u, hs, hu⟩ := runSteps_succ_eq_next.mp h
    rw [Nat.succ_add, runSteps_succ hs, ih hu]

/-- A run that completes has completed at every earlier point. -/
theorem runSteps_prefix {j k : Nat} {s t : State} (h : runSteps (j + k) s = .next t) :
    ∃ u, runSteps j s = .next u := by
  induction j generalizing s with
  | zero => exact ⟨s, rfl⟩
  | succ j ih =>
    rw [Nat.succ_add] at h
    obtain ⟨u, hs, hu⟩ := runSteps_succ_eq_next.mp h
    rw [runSteps_succ hs]
    exact ih hu

theorem step_keeps_ready {s t : State} (hr : s.Ready) (h : step s = .next t) : t.Ready := by
  obtain ⟨hv, hu, ⟨w, i, -, -, rfl⟩ | ⟨-, rfl⟩⟩ := step_next_cases h
  · exact ⟨by rw [(effectOf_keeps _ _).1]; exact hv, hu⟩
  · exact hr

theorem runSteps_keeps_ready {k : Nat} {s t : State} (hr : s.Ready) (h : runSteps k s = .next t) : t.Ready := by
  induction k generalizing s with
  | zero => cases h; exact hr
  | succ k ih =>
    obtain ⟨u, hs, hu⟩ := runSteps_succ_eq_next.mp h
    exact ih (step_keeps_ready hr hs) hu

/-- With nothing pending a run idles. -/
theorem runSteps_of_empty {s : State} (k : Nat) (hr : s.Ready) (h : s.pending = []) : runSteps k s = .next s := by
  have hs : step s = .next s := by
    rw [step_of_empty (by rw [State.fetch, h]; rfl)]
    exact perform_of_ready hr.1 hr.2
  induction k with
  | zero => rfl
  | succ k ih => rw [runSteps_succ hs, ih]

/-- An instruction's effect does not read the host's list or the position. -/
theorem effectOf_advance (i : Instr) (s : State) : effectOf i s.advance = (effectOf i s).advance := by
  cases i <;> rfl

/-- A step on a word that decodes completes when its instruction's effect raises nothing. -/
theorem step_of_word {s : State} {w : Hcw} {i : Instr} {rest : List Request} (hr : s.Ready)
    (hp : s.pending = .word w :: rest) (hd : decode w = .ok i) (hu : (effectOf i s).block.refused = none) :
    step s = .next (effectOf i s).advance := by
  rw [step_of_decode (by rw [State.fetch, hp]; rfl) hd, exec_eq_perform, ← effectOf_advance]
  exact perform_of_ready hr.1 (by rw [effectOf_advance]; exact hu)

end Sys2Proof.Machine
end

