-- ==== Sys2Proof/Tests/Slice0.lean ====
section
/-! SUPPORT. The model's own tests: words of the spec, one-step effects with results from spec/95_test_vectors.md, and for
each statement a concrete state that meets its hypotheses. -/

namespace Sys2Proof.Tests

open Sys2Proof Sys2Proof.Machine

/-! ## Helpers -/

/-- The default configuration with the reference instances, as the spec's vectors have it. -/
def refConfig : Config := { Config.default with tables := .reference }

/-- The reset state of the vectors. -/
def start : State := State.init refConfig

/-- The state an operation leaves, next or refused. -/
def after (o : Host.Outcome State Fault Refusal) : State :=
  match o with
  | .next s => s
  | .refused (.raised _ s) => s
  | .refused (.notModelled _) => start
  | .fault f => nomatch f

/-- The operation completed. -/
def completes (o : Host.Outcome State Fault Refusal) : Bool :=
  match o with
  | .next _ => true
  | .refused _ => false
  | .fault _ => false

/-- The reason of a refusal. -/
def reasonOf (o : Host.Outcome State Fault Refusal) : Option RefusalReason :=
  match o with
  | .refused (.raised r _) => some r
  | .refused (.notModelled _) => none
  | .next _ => none
  | .fault _ => none

/-- Timer 0 programmed with its pointer at the low byte. -/
def programmed : State := after (exec (.wrTctl 0x34) start)

/-- Timer 0 with its low byte 0x04 latched. -/
def lowLatched : State := after (exec (.wrFreq0 0x04) programmed)

/-- Timer 0 loaded with 4 and armed (V40-8), with channel 0 at full level on the left. -/
def armed : State := after (exec (.wrVolPan 0 0xF0) (after (exec (.wrFreq0 0x00) lowLatched)))

/-- Timer 0 running, at the last tick of a phase. -/
def terminal : State := after (exec .tick (after (exec .tick armed)))

/-- Timer 0 as given, in the reset state. -/
def withTimer (tm : Timer) : State := start.onBlock (·.modifyTimer 0 fun _ => tm)

/-! ## WellFormed: an ill-formed term for each check -/

theorem test_wellFormed_rejects_0407_below : (Instr.wrUnmapped0407 0x03 0).wellFormed = false := by decide
theorem test_wellFormed_rejects_0407_above : (Instr.wrUnmapped0407 0x08 0).wellFormed = false := by decide
theorem test_wellFormed_rejects_080F_below : (Instr.wrUnmapped080F 0x07 0).wellFormed = false := by decide
theorem test_wellFormed_rejects_080F_above : (Instr.wrUnmapped080F 0x10 0).wellFormed = false := by decide
theorem test_wellFormed_rejects_181F_below : (Instr.wrUnmapped181F 0x17 0).wellFormed = false := by decide

/-! ## Decoding: words written out from spec/30_encoding.md R302–R308 -/

theorem test_decode_freq0 : decode 0b0000000010101011 = .ok (.wrFreq0 0xAB) := by decide
theorem test_decode_freq1 : decode 0b0000000100010010 = .ok (.wrFreq1 0x12) := by decide
theorem test_decode_freq2 : decode 0b0000001011101000 = .ok (.wrFreq2 0xE8) := by decide
theorem test_decode_tctl : decode 0b0000001100110100 = .ok (.wrTctl 0x34) := by decide
theorem test_decode_unmapped_04 : decode 0b0000010000000001 = .ok (.wrUnmapped0407 0x04 0x01) := by decide
theorem test_decode_unmapped_07 : decode 0b0000011110000000 = .ok (.wrUnmapped0407 0x07 0x80) := by decide
theorem test_decode_unmapped_0A : decode 0b0000101011111111 = .ok (.wrUnmapped080F 0x0A 0xFF) := by decide
theorem test_decode_unmapped_0F : decode 0b0000111100000001 = .ok (.wrUnmapped080F 0x0F 0x01) := by decide
theorem test_decode_volpan : decode 0b0001001100001111 = .ok (.wrVolPan 3 0x0F) := by decide
theorem test_decode_wave : decode 0b0001010010000000 = .ok (.wrWave 0 0x80) := by decide
theorem test_decode_unmapped_18 : decode 0b0001100000000011 = .ok (.wrUnmapped181F 0x18 0x03) := by decide
theorem test_decode_unmapped_1F : decode 0b0001111110101010 = .ok (.wrUnmapped181F 0x1F 0xAA) := by decide
theorem test_decode_tick : decode 0b0010000000000000 = .ok .tick := by decide
theorem test_decode_reset : decode 0b0100000000000000 = .ok .reset := by decide
theorem test_decode_peek : decode 0b0111111100000000 = .ok (.peek 0x1F) := by decide
theorem test_decode_reserved_tick : decode 0x2001 = .error .tickOperand := by decide
theorem test_decode_reserved_reset : decode 0x4100 = .error .resetOperand := by decide
theorem test_decode_reserved_peek : decode 0x6001 = .error .peekOperand := by decide
theorem test_decode_reserved_ops : decode 0x8000 = .error .reservedOp ∧ decode 0xFFFF = .error .reservedOp := by decide
theorem test_decodeTableWord_volpan : decodeTableWord 16 0x130F = some (.wrVolPan 3 0x0F) := by decide

/-- A word placed for the next step is the instruction the step runs, right after reset. -/
theorem test_withFetchWord_runs :
    step (State.reset.withFetchWord 16 0x1480) = exec (.wrWave 0 0x80) (State.reset.placeWord 0x1480).advance := by rfl

/-! ## One-step effects: results from spec/95_test_vectors.md part 2 -/

/-- V40-2. -/
theorem test_tctl_programs_timer1 :
    (after (exec (.wrTctl 0x74) start)).block.timerAt 1 = ⟨0x74, 0, 0, 0, false, false, true⟩ := by decide

/-- V40-4: SEL = 3 is refused, and the mirror is written. -/
theorem test_tctl_select3_refused :
    reasonOf (exec (.wrTctl 0xF4) start) = some .ctrlSelect3 ∧
      (after (exec (.wrTctl 0xF4) start)).block.mirrorAt 0x03 = 0xF4 := by decide

/-- V40-7. -/
theorem test_freq1_before_control_refused :
    reasonOf (exec (.wrFreq1 0x12) start) = some (.dataBeforeCtrl 1) ∧
      (after (exec (.wrFreq1 0x12) start)).block.mirrorAt 0x01 = 0x12 := by decide

/-- V40-8. -/
theorem test_freq0_loads :
    (after (exec (.wrFreq0 0x00) lowLatched)).block.timerAt 0 = ⟨0x34, 4, 3, 4, false, true, true⟩ := by decide

/-- The example of R411. -/
theorem test_freq2_latches :
    ((after (exec (.wrFreq2 0xE8) (after (exec (.wrTctl 0xB4) start)))).block.timerAt 2).latch = 0xE8 := by decide

/-- V41-1. -/
theorem test_volpan_sets_register :
    (after (exec (.wrVolPan 2 0xF0) start)).block.volpanAt 2 = 0xF0 ∧
      (after (exec (.wrVolPan 2 0xF0) start)).block.mirrorAt 0x12 = 0xF0 := by decide

/-- V41-2. -/
theorem test_wave_sets_register :
    (after (exec (.wrWave 3 0x05) start)).block.waveAt 3 = 5 ∧
      (after (exec (.wrWave 3 0x05) start)).block.mirrorAt 0x17 = 5 := by decide

/-- V41-4 with its mirror. -/
theorem test_unmapped_04_mirrored : (after (exec (.wrUnmapped0407 0x04 0x01) start)).block.mirrorAt 0x04 = 1 := by decide

theorem test_unmapped_0A_mirrored : (after (exec (.wrUnmapped080F 0x0A 0xFF) start)).block.mirrorAt 0x0A = 0xFF := by
  decide

/-- V41-3. -/
theorem test_unmapped_1F_peeked :
    (after (exec (.peek 0x1F) (after (exec (.wrUnmapped181F 0x1F 0xAA) start)))).received = [.byte 0xAA] := by decide

/-- V42-1. -/
theorem test_tick_counts_divider :
    (after (exec .tick start)).block.noiseTimer = 7499 ∧ (after (exec .tick start)).block.noise = 1 := by decide

/-- V42-3, the toggle: the third tick after the load flips the output. -/
theorem test_tick_toggles_at_terminal_count :
    (terminal.block.timerAt 0).count = 1 ∧
      (after (exec .tick terminal)).block.timerAt 0 = ⟨0x34, 4, 2, 4, false, true, false⟩ := by decide

/-- V43-3: L = 5, R = 10 on a stopped-high timer. -/
theorem test_record_of_stopped_high_timer :
    ((after (exec (.wrVolPan 0 0x5A) programmed)).block.outputRecord refConfig).outL = 640 ∧
      ((after (exec (.wrVolPan 0 0x5A) programmed)).block.outputRecord refConfig).outR = 1280 := by decide

/-- V70-1 and V70-3: RESET restores the block; a refusal mark survives it. -/
theorem test_reset_restores_block : (after (exec .reset armed)).block = start.block := by decide
theorem test_reset_keeps_mark :
    (after (exec .reset (after (exec (.wrTctl 0x36) start)))).block.refused = some (.ctrlMode 0x36) := by decide

/-- V44-2, V44-4, V44-6 and V44-3. -/
theorem test_setfreq_expansion : HostOp.expand (.setFreq 2 0x00FF) = [.word 0x03B4, .word 0x02FF, .word 0x0200] := by
  decide
theorem test_setvolpan_expansion : HostOp.expand (.setVolPan 3 0x0F) = [.word 0x130F] := by decide
theorem test_setwave_expansion : HostOp.expand (.setWave 0 0x80) = [.word 0x1480] := by decide
theorem test_setfreq_channel3 : HostOp.expand (.setFreq 3 0x0100) = [.refuse .channelRange] := by decide

/-- V44-10 and V44-11. -/
theorem test_noiseClock_of_other_clocks :
    Config.noiseClock ⟨3579545, 0, 1, .reference⟩ = 8948 ∧ Config.noiseClock ⟨100, 0, 1, .reference⟩ = 1 := by decide

/-! ## Witnesses: the hypotheses of each statement are met -/

theorem witness_DecodeOfEncode :
    (Instr.wrUnmapped0407 0x04 0).WellFormed ∧ (Instr.wrUnmapped0407 0x07 0).WellFormed ∧
      (Instr.wrUnmapped080F 0x08 0).WellFormed ∧ (Instr.wrUnmapped080F 0x0F 0).WellFormed ∧
      (Instr.wrUnmapped181F 0x18 0).WellFormed ∧ (Instr.wrUnmapped181F 0x1F 0).WellFormed ∧
      (Instr.wrVolPan 3 0xFF).WellFormed := by decide

theorem witness_EncodeOfDecode : decode 0x7F00 = .ok (.peek 0x1F) := by decide

theorem witness_OpcodeMapAgreesWithDecoder : (⟨"PEEK", 0x6000, 0xE0FF⟩ : OpcodeRow) ∈ opcodeRows := by decide

theorem witness_StepRunsDecodedInstruction :
    (start.submit [.ticks 2]).pending = .word 0x2000 :: [.word 0x2000] ∧ decode 0x2000 = .ok .tick := by decide

theorem witness_IdleStepKeepsState : State.reset.Ready ∧ State.reset.pending = [] := by decide

theorem witness_StepTakesOneOperation_idle : step State.reset = .next State.reset := rfl
theorem witness_StepTakesOneOperation_taken : completes (step (start.submit [.ticks 1])) = true := by decide
theorem witness_ConfigurationIsFixed : completes (step (start.submit [.word 0x4000])) = true := by decide

theorem witness_RefusalIsSticky :
    ((start.raise .portRange).submit [.word 0x4000]).block.refused = some .portRange := by decide

theorem witness_InvalidConfigurationIsRefused :
    (State.init ⟨3000000, 3, 1, .unspecified⟩).block.refused = none ∧ 2 < (⟨3000000, 3, 1, .unspecified⟩ : Config).clockSel ∧
      (State.init ⟨3000000, 2, 0, .unspecified⟩).block.refused = none ∧
      (State.init ⟨0, 0, 1, .unspecified⟩).block.refused = none := ⟨rfl, by decide, rfl, rfl⟩

theorem witness_ReservedWordIsRefused :
    (start.submit [.word 0x8000]).Ready ∧ (start.submit [.word 0x8000]).pending = .word 0x8000 :: [] ∧
      4 ≤ (0x8000 : Hcw).toNat / 2 ^ 13 ∧
      ((0x2001 : Hcw).toNat / 2 ^ 13 = 1 ∧ (0x2001 : Hcw).toNat % 2 ^ 13 ≠ 0) ∧
      ((0x5FFF : Hcw).toNat / 2 ^ 13 = 2 ∧ (0x5FFF : Hcw).toNat % 2 ^ 13 ≠ 0) ∧
      ((0x6001 : Hcw).toNat / 2 ^ 13 = 3 ∧ (0x6001 : Hcw).toNat % 2 ^ 8 ≠ 0) := by decide

theorem witness_ControlWriteRefusals :
    start.Ready ∧ (0xF4 : Byte).toNat / 64 = 3 ∧ (0xC0 : Byte).toNat / 64 = 3 ∧ (0x36 : Byte).toNat % 64 ≠ 0x34 ∧
      (0x00 : Byte).toNat % 64 ≠ 0x34 := by decide

theorem witness_DataBeforeControlIsRefused :
    start.Ready ∧ ∀ t : TimerIx, (start.block.timerAt t).ctrl.toNat % 64 ≠ 0x34 := by decide

theorem witness_OutOfRangeRequestChangesNothing :
    start.Ready ∧
      (start.submit [.setFreq 3 0, .ticks 1]).pending = HostOp.expand (.setFreq 3 0) ++ [.word 0x2000] ∧ 3 ≤ 3 ∧
      (start.submit [.setVolPan 4 0]).pending = HostOp.expand (.setVolPan 4 0) ++ [] ∧ 4 ≤ 4 ∧
      (start.submit [.setWave 4 0x100]).pending = HostOp.expand (.setWave 4 0x100) ++ [] ∧
      (start.submit [.setVolPan 3 0x100]).pending = HostOp.expand (.setVolPan 3 0x100) ++ [] ∧ 3 < 4 ∧ 256 ≤ 0x100 ∧
      (start.submit [.poke 0x20 0]).pending = HostOp.expand (.poke 0x20 0) ++ [] ∧ 32 ≤ 0x20 ∧
      (start.submit [.poke 0x1F 0x100]).pending = HostOp.expand (.poke 0x1F 0x100) ++ [] ∧
      (start.submit [.write 0x20 0]).pending = HostOp.expand (.write 0x20 0) ++ [] ∧
      (start.submit [.peek 0x20]).pending = HostOp.expand (.peek 0x20) ++ [] := by decide

theorem witness_WriteAlwaysLandsInMirror :
    start.Ready ∧ (Instr.wrTctl 0xFF).isWrite = true ∧ (Instr.wrVolPan 3 0xFF).isWrite = true := by decide

theorem witness_ControlWriteProgramsTimer :
    start.Ready ∧ (0x34 : Byte).toNat = 0x34 + 64 * (0 : TimerIx).val ∧
      (0x74 : Byte).toNat = 0x34 + 64 * (1 : TimerIx).val ∧ (0xB4 : Byte).toNat = 0x34 + 64 * (2 : TimerIx).val := by
  decide

theorem witness_LowByteIsLatched :
    programmed.Ready ∧ (programmed.block.timerAt 0).ctrl.toNat % 64 = 0x34 ∧
      (programmed.block.timerAt 0).hiNext = false := by decide

theorem witness_HighByteLoadsAndArms :
    lowLatched.Ready ∧ (lowLatched.block.timerAt 0).ctrl.toNat % 64 = 0x34 ∧
      (lowLatched.block.timerAt 0).hiNext = true := by decide

/-- The premise `Ready` of the completion statements of WR_VOLPAN, WR_WAVE, the unmapped writes, PEEK, RESET and TICK. -/
theorem witness_Ready : State.reset.Ready ∧ armed.Ready := by decide

theorem witness_UnmappedWriteIsMirrorOnly :
    start.Ready ∧ (Instr.wrUnmapped0407 0x07 1 = .wrUnmapped0407 0x07 1 ∨ Instr.wrUnmapped0407 0x07 1 = .wrUnmapped080F 0x07 1 ∨
      Instr.wrUnmapped0407 0x07 1 = .wrUnmapped181F 0x07 1) := by decide

theorem witness_WritesAreIdempotentButData :
    (Instr.wrTctl 0x34).isWrite = true ∧ (Instr.wrTctl 0x34).WellFormed ∧
      2 < (addrField (encode (.wrTctl 0x34))).toNat ∧ completes (exec (.wrTctl 0x34) start) = true := by decide

theorem witness_TwoEqualDataBytesLoad :
    programmed.Ready ∧ (programmed.block.timerAt 0).ctrl.toNat % 64 = 0x34 ∧
      (programmed.block.timerAt 0).hiNext = false := by decide

theorem witness_ResetTwiceIsResetOnce : completes (exec .reset armed) = true := by decide

theorem witness_InitialStateIsResetState : refConfig.valid = true ∧ Config.default.valid = true := by decide

theorem witness_ResetSetsEveryField : State.reset.Ready ∧ FitsDivider State.reset.config := by decide

theorem witness_StoppedTimerIsUnchanged : start.Ready ∧ ∀ t : TimerIx, (start.block.timerAt t).running = false := by decide

/-- Both cases of the count: 1, and the top of its range. -/
theorem witness_RunningTimerCountsAndToggles :
    (withTimer ⟨0x34, 0, 1, 0, false, true, true⟩).Ready ∧
      ((withTimer ⟨0x34, 0, 1, 0, false, true, true⟩).block.timerAt 0).running = true ∧
      1 ≤ ((withTimer ⟨0x34, 0, 1, 0, false, true, true⟩).block.timerAt 0).count.toNat ∧
      ((withTimer ⟨0x34, 0, 1, 0, false, true, true⟩).block.timerAt 0).count.toNat = 1 ∧
      ((withTimer ⟨0x34, 0, 32769, 0, false, true, true⟩).block.timerAt 0).count.toNat ≠ 1 := by decide

/-- Reload 0, 1, 2 and the top value. -/
theorem witness_PhaseLengths :
    ((0 : BitVec 16) = 0 ∧ 65536 = 65536) ∧ ((1 : BitVec 16) ≠ 0 ∧ 1 = (1 : BitVec 16).toNat) ∧
      ((2 : BitVec 16) ≠ 0 ∧ 2 = (2 : BitVec 16).toNat ∧ 2 ≤ 2) ∧
      ((0xFFFF : BitVec 16) ≠ 0 ∧ 65535 = (0xFFFF : BitVec 16).toNat ∧ 2 ≤ 65535) := by decide

theorem witness_TimersAreIndependent :
    completes (exec .tick start) = true ∧ completes (exec .tick armed) = true ∧
      start.block.timerAt 1 = armed.block.timerAt 1 := by decide

/-- Both cases of the divider: at 1, and at its start. -/
theorem witness_NoiseDividerStepsOnTick :
    (start.onBlock ({ · with noiseTimer := 1 })).Ready ∧ FitsDivider refConfig ∧
      1 ≤ (start.onBlock ({ · with noiseTimer := 1 })).block.noiseTimer.toNat ∧
      (start.onBlock ({ · with noiseTimer := 1 })).block.noiseTimer.toNat - 1 = 0 ∧
      1 ≤ start.block.noiseTimer.toNat ∧ start.block.noiseTimer.toNat - 1 ≠ 0 := by decide

theorem witness_NoiseAdvanceCount :
    (start.submit [.ticks 10]).Ready ∧ FitsDivider (start.submit [.ticks 10]).config ∧
      1 ≤ (start.submit [.ticks 10]).block.noiseTimer.toNat ∧
      (start.submit [.ticks 10]).block.noiseTimer.toNat ≤ (start.submit [.ticks 10]).config.noiseClock ∧
      (start.submit [.ticks 10]).pending = HostOp.expand (.ticks 10) := by decide

theorem witness_NoiseChangesOnlyByTickOrReset :
    completes (exec (.peek 0) start) = true ∧ Instr.peek 0 ≠ .tick ∧ Instr.peek 0 ≠ .reset := by decide

theorem witness_DeliveriesOnlyGrow :
    completes (exec .tick armed) = true ∧ completes (exec (.peek 3) armed) = true ∧
      completes (exec .reset armed) = true := by decide

theorem witness_ChannelContributions : (2 : TimerIx).val = (2 : Channel).val ∧ (3 : Channel).val = 3 := by decide

theorem witness_SilenceAndFullLevel :
    start.block.volpanAt 3 = 0x00 ∧ (start.block.setVolpan 3 0xFF).volpanAt 3 = 0xFF := by decide

theorem witness_SilentUntilALevelIsWritten :
    (∀ c, start.block.volpanAt c = 0) ∧ completes (exec .tick start) = true ∧
      decode 0x1000 = .ok (.wrVolPan 0 0x00) ∧ decode 0x2000 = .ok .tick ∧
      (start.submit [.setVolPan 0 0, .ticks 2]).pending = [.word 0x1000, .word 0x2000, .word 0x2000] ∧
      completes (runSteps 3 (start.submit [.setVolPan 0 0, .ticks 2])) = true := by decide

theorem witness_SetVolPanExpansion : (3 ≤ 3 ∧ 255 < 256) ∧ 3 < 4 ∧ (3 ≤ 3 ∧ 256 ≤ 256) := by decide
theorem witness_SetWaveExpansion : (0 ≤ 3 ∧ 3 ≤ 3 ∧ 255 < 256) ∧ 3 < 4 ∧ (3 ≤ 3 ∧ 256 ≤ 256) := by decide
theorem witness_WriteAndPeekExpansion :
    (31 < 32 ∧ 255 < 256) ∧ (32 ≤ 32 ∨ 256 ≤ 0) ∧ (32 ≤ 31 ∨ 256 ≤ 256) := by decide
theorem witness_PokeExpansion : (31 < 32 ∧ 255 < 256) ∧ (32 ≤ 32 ∨ 256 ≤ 0) ∧ (32 ≤ 0 ∨ 256 ≤ 256) := by decide

theorem witness_SetFreqLoadsTimer :
    (start.submit [.setFreq 2 0x1234]).Ready ∧
      (start.submit [.setFreq 2 0x1234]).pending = HostOp.expand (.setFreq (2 : TimerIx).val 0x1234) := by decide

/-- Reload 0 and reload 1. -/
theorem witness_SquareWaveAfterLoad :
    (start.submit [.setFreq 0 1, .ticks 3]).Ready ∧ ((1 : BitVec 16) ≠ 0 ∧ 1 = (1 : BitVec 16).toNat) ∧
      (start.submit [.setFreq 0 1, .ticks 3]).pending =
        HostOp.expand (.setFreq (0 : TimerIx).val 1) ++ HostOp.expand (.ticks (2 + 1)) ∧
      ((0 : BitVec 16) = 0 ∧ 65536 = 65536) := by decide

theorem witness_TicksAreRender :
    (start.submit [.ticks 3]).Ready ∧ (start.submit [.ticks 3]).pending = HostOp.expand (.ticks 3) := by decide

theorem witness_SafeHostIsNeverRefused :
    State.reset.Ready ∧ State.reset.pending = [] ∧
      (∀ t : TimerIx, t ∈ ([] : List TimerIx) ↔ (State.reset.block.timerAt t).ctrl.toNat % 64 = 0x34) ∧
      programmed.Ready ∧ programmed.pending = [] ∧
      (∀ t : TimerIx, t ∈ ([0] : List TimerIx) ↔ (programmed.block.timerAt t).ctrl.toNat % 64 = 0x34) := by decide

/-- The check allows P1's raw data writes after their control byte and a timer programmed through pokes, and keeps a timer
programmed by SETFREQ for later data bytes. -/
theorem test_avoidsRefusal_allows :
    avoidsRefusal [] [.write 0x03 0x34, .write 0x00 0x04, .write 0x00 0x00, .write 0x10 0xF0, .ticks 6] = true ∧
      avoidsRefusal [] [.batch [(3, 0xB4), (2, 3), (2, 0)], .word 0x0203, .peek 31] = true ∧
      avoidsRefusal [] [.setFreq 2 0, .poke 2 1, .setVolPan 3 0xFF, .setWave 3 1, .word 0x4000] = true := by decide

/-- One list for each form of R826, and a data byte after a RESET. -/
theorem test_avoidsRefusal_refuses :
    avoidsRefusal [] [.word 0x0336] = false ∧ avoidsRefusal [] [.write 0x03 0xF4] = false ∧
      avoidsRefusal [0] [.word 0x0112] = false ∧ avoidsRefusal [] [.setFreq 0 1, .word 0x4000, .poke 0 1] = false ∧
      avoidsRefusal [] [.poke 32 0] = false ∧ avoidsRefusal [] [.batch [(4, 0), (4, 256)]] = false ∧
      avoidsRefusal [] [.word 0x2001] = false ∧ avoidsRefusal [] [.word 0x8000] = false ∧
      avoidsRefusal [] [.setFreq 3 0] = false ∧ avoidsRefusal [] [.setVolPan 4 0] = false ∧
      avoidsRefusal [] [.setWave 4 0] = false := by decide

/-- The invariant's premises, in the initial state and with an operation pending. -/
theorem witness_StepKeepsBlockWellFormed :
    FitsDivider refConfig ∧ (∀ c : Channel, armed.block.mirrorAt (volPanAddr c) = armed.block.volpanAt c) ∧
      (∀ c : Channel, armed.block.mirrorAt (waveAddr c) = armed.block.waveAt c) ∧
      (∀ t : TimerIx, (armed.block.timerAt t).running = true →
        1 ≤ (armed.block.timerAt t).count.toNat ∧ (armed.block.timerAt t).count.toNat ≤ 32769) ∧
      (∀ t : TimerIx, (armed.block.timerAt t).running = true → (armed.block.timerAt t).Programmed) ∧
      (1 ≤ armed.block.noiseTimer.toNat ∧ armed.block.noiseTimer.toNat ≤ refConfig.noiseClock) ∧
      completes (step (armed.submit [.ticks 1])) = true := by decide

theorem witness_InitialBlockWellFormed : FitsDivider Config.default := by decide

theorem witness_MirrorNeverReachesSynthesis :
    (∀ a, Instr.tick ≠ .peek a) ∧ start.block.EqualButMirror (start.onBlock (·.setMirror 0x1F 0xAA)).block ∧
      start.SameHost (start.onBlock (·.setMirror 0x1F 0xAA)) ∧ completes (exec .tick start) = true :=
  ⟨by decide, ⟨rfl, rfl, rfl, ⟨rfl, rfl⟩, rfl⟩, ⟨rfl, rfl, rfl, rfl⟩, by decide⟩

theorem witness_UnmappedWriteIsInaudible :
    completes (exec (.wrUnmapped080F 0x0F 0xAA) (armed.submit [.ticks 2, .peek 0x0E])) = true ∧
      (armed.submit [.ticks 2, .peek 0x0E]).pending = [.word 0x2000, .word 0x2000, .word 0x6E00] ∧
      decode 0x2000 ≠ .ok (.peek 0x0F) ∧ decode 0x6E00 ≠ .ok (.peek 0x0F) ∧
      completes (runSteps 3 (armed.submit [.ticks 2, .peek 0x0E])) = true := by decide

end Sys2Proof.Tests
end

section
/-! SUPPORT. Proofs about TICK and the timer bank: a ready state ticks to completion, and a stopped timer stays as it is. -/

namespace Sys2Proof.Machine

open Sys2Proof

@[simp] theorem effectOf_tick_config (s : State) : (effectOf .tick s).config = s.config := rfl
@[simp] theorem effectOf_tick_block (s : State) : (effectOf .tick s).block = s.block.tick s.config := rfl

/-- `TICK` has no exception (R500): from a ready state it always completes. -/
theorem exec_tick_of_ready {s : State} (hr : s.Ready) : exec .tick s = .next (effectOf .tick s) := by
  obtain ⟨hvalid, hunmarked⟩ := hr
  rw [exec_eq_perform]
  exact perform_of_ready hvalid (by simpa using hunmarked)

theorem Timer.step_of_stopped {tm : Timer} (h : tm.running = false) : tm.step = tm := by
  simp [Timer.step, h]

/-- The carrier bit of channels 0–2 is the output of the timer with the channel's index (R550). -/
theorem Block.carrier_of_timer (cfg : Config) (b : Block) {c : Channel} {t : TimerIx} (h : c.val = t.val) :
    b.carrier cfg c = (b.timerAt t).out := by
  have hc : c.val < 3 := h ▸ t.isLt
  have ht : (⟨c.val, hc⟩ : TimerIx) = t := Fin.ext h
  rw [Block.carrier, dif_pos hc, ht]

/-- Settles O30: the tick takes one `Timer.step` of each timer, which is the identity on a stopped one, and the carrier
bit of a channel with a timer is a field of that timer. -/
theorem stoppedTimerIsUnchanged : Obligations.StoppedTimerIsUnchanged := by
  intro s t hr hstopped
  have htimer : (effectOf .tick s).block.timerAt t = s.block.timerAt t := by
    rw [effectOf_tick_block, Block.tick_timerAt, Timer.step_of_stopped hstopped]
  refine ⟨effectOf .tick s, exec_tick_of_ready hr, htimer, fun c hc => ?_⟩
  rw [Block.carrier_of_timer _ _ hc, Block.carrier_of_timer _ _ hc, htimer]

end Sys2Proof.Machine
end

section
/-! SUPPORT. Proofs about synthesis: the bounds of the signal, of the levels, of a channel's contributions and of the mix. -/

namespace Sys2Proof.Machine

open Sys2Proof

/-- A level is a nibble (R306), so at most 15. -/
theorem leftLevel_le (v : Byte) : leftLevel v ≤ 15 := Nat.le_of_lt_succ (v.extractLsb' 4 4).isLt

theorem rightLevel_le (v : Byte) : rightLevel v ≤ 15 := Nat.le_of_lt_succ (v.extractLsb' 0 4).isLt

/-- A signal is −1, 0 or +1 (R12), so it scales a level by its sign only. -/
theorem abs_signalValue_mul_le (w : Signal) (n : Nat) : |signalValue w * (n : Int)| ≤ n := by
  cases w <;> simp [signalValue]

/-- A left contribution lies in −15..15 (R552). -/
theorem Block.abs_chanL_le (cfg : Config) (b : Block) (c : Channel) : |b.chanL cfg c| ≤ 15 :=
  (abs_signalValue_mul_le _ _).trans (mod_cast leftLevel_le (b.volpanAt c))

/-- A right contribution lies in −15..15 (R552). -/
theorem Block.abs_chanR_le (cfg : Config) (b : Block) (c : Channel) : |b.chanR cfg c| ≤ 15 :=
  (abs_signalValue_mul_le _ _).trans (mod_cast rightLevel_le (b.volpanAt c))

/-- Four contributions in −15..15 add up to a mix in −60..60. -/
theorem sum_four_bounds {f : Channel → Int} (hf : ∀ c, |f c| ≤ 15) :
    -60 ≤ f 0 + f 1 + f 2 + f 3 ∧ f 0 + f 1 + f 2 + f 3 ≤ 60 := by
  have bounds (c : Channel) : -15 ≤ f c ∧ f c ≤ 15 := abs_le.mp (hf c)
  have h0 := bounds 0
  have h1 := bounds 1
  have h2 := bounds 2
  have h3 := bounds 3
  omega

theorem Block.mixL_bounds (cfg : Config) (b : Block) : -60 ≤ b.mixL cfg ∧ b.mixL cfg ≤ 60 :=
  sum_four_bounds (b.abs_chanL_le cfg)

theorem Block.mixR_bounds (cfg : Config) (b : Block) : -60 ≤ b.mixR cfg ∧ b.mixR cfg ≤ 60 :=
  sum_four_bounds (b.abs_chanR_le cfg)

/-- Settles O39: the mix is defined as the exact sum (R553), and its range follows from the range −15..15 of each
contribution. -/
theorem stereoMixIsExactSum : Obligations.StereoMixIsExactSum := by
  intro cfg b
  obtain ⟨hLlow, hLhigh⟩ := b.mixL_bounds cfg
  obtain ⟨hRlow, hRhigh⟩ := b.mixR_bounds cfg
  exact ⟨rfl, rfl, hLlow, hLhigh, hRlow, hRhigh⟩

end Sys2Proof.Machine
end

section
/-! SUPPORT. Proofs about the host protocol (spec/44_host_protocol.md): what a batch of pokes expands to. -/

namespace Sys2Proof.Machine

open Sys2Proof

@[simp] theorem HostOp.expand_batch_nil : (HostOp.batch []).expand = [] := rfl

/-- The pokes of a batch keep the order of its pairs (R606). -/
@[simp] theorem HostOp.expand_batch_cons (a v : Nat) (rest : List (Nat × Nat)) :
    (HostOp.batch ((a, v) :: rest)).expand = (HostOp.poke a v).expand ++ (HostOp.batch rest).expand :=
  List.flatMap_cons

/-- Settles O47: one equation for each constructor of the list of pairs. -/
theorem batchIsItsPokesInOrder : Obligations.BatchIsItsPokesInOrder :=
  ⟨HostOp.expand_batch_nil, HostOp.expand_batch_cons⟩

end Sys2Proof.Machine
end

section
/-! SUPPORT. Proofs about the encoding (spec/30_encoding.md): the decoder and the encoder are inverse to each other, the
reserved words, and the opcode map. -/

namespace Sys2Proof

theorem decodeWrite_freqAddr (t : TimerIx) (v : Byte) : decodeWrite (freqAddr t) v = .wrFreq t v := by
  match t with
  | 0 => rfl
  | 1 => rfl
  | 2 => rfl

theorem decodeWrite_tctlAddr (v : Byte) : decodeWrite tctlAddr v = .wrTctl v := rfl

theorem decodeWrite_volPanAddr (c : Channel) (v : Byte) : decodeWrite (volPanAddr c) v = .wrVolPan c v := by
  match c with
  | 0 => rfl
  | 1 => rfl
  | 2 => rfl
  | 3 => rfl

theorem decodeWrite_waveAddr (c : Channel) (v : Byte) : decodeWrite (waveAddr c) v = .wrWave c v := by
  match c with
  | 0 => rfl
  | 1 => rfl
  | 2 => rfl
  | 3 => rfl

theorem decodeWrite_of_0407 {a : Addr} (v : Byte) (h : 4 ≤ a.toNat ∧ a.toNat ≤ 7) :
    decodeWrite a v = .wrUnmapped0407 a v := by
  obtain ⟨hlow, hhigh⟩ := h
  unfold decodeWrite
  rw [if_neg, if_neg, if_neg, if_neg, if_pos hhigh] <;> omega

theorem decodeWrite_of_080F {a : Addr} (v : Byte) (h : 8 ≤ a.toNat ∧ a.toNat ≤ 15) :
    decodeWrite a v = .wrUnmapped080F a v := by
  obtain ⟨hlow, hhigh⟩ := h
  unfold decodeWrite
  rw [if_neg, if_neg, if_neg, if_neg, if_neg, if_pos hhigh] <;> omega

theorem decodeWrite_of_181F {a : Addr} (v : Byte) (h : 24 ≤ a.toNat) : decodeWrite a v = .wrUnmapped181F a v := by
  unfold decodeWrite
  rw [if_neg, if_neg, if_neg, if_neg, if_neg, if_neg, if_neg, if_neg] <;> omega

/-- The address and the byte of a write row are the operands of its word, and the dispatch gives the row back (R300). -/
theorem encode_eq_encodeWrite {i : Instr} (hw : i.isWrite = true) :
    ∃ a v, encode i = encodeWrite a v ∧ (i.WellFormed → decodeWrite a v = i) := by
  cases i with
  | wrFreq0 v => exact ⟨_, v, rfl, fun _ => decodeWrite_freqAddr 0 v⟩
  | wrFreq1 v => exact ⟨_, v, rfl, fun _ => decodeWrite_freqAddr 1 v⟩
  | wrFreq2 v => exact ⟨_, v, rfl, fun _ => decodeWrite_freqAddr 2 v⟩
  | wrTctl v => exact ⟨_, v, rfl, fun _ => decodeWrite_tctlAddr v⟩
  | wrUnmapped0407 a v => exact ⟨a, v, rfl, fun h => decodeWrite_of_0407 v (of_decide_eq_true h)⟩
  | wrUnmapped080F a v => exact ⟨a, v, rfl, fun h => decodeWrite_of_080F v (of_decide_eq_true h)⟩
  | wrVolPan c v => exact ⟨_, v, rfl, fun _ => decodeWrite_volPanAddr c v⟩
  | wrWave c v => exact ⟨_, v, rfl, fun _ => decodeWrite_waveAddr c v⟩
  | wrUnmapped181F a v => exact ⟨a, v, rfl, fun h => decodeWrite_of_181F v (of_decide_eq_true h).1⟩
  | tick => cases hw
  | reset => cases hw
  | peek a => cases hw

/-- The PEEK word `011AAAAA00000000` as a number (R305). -/
theorem encode_peek_toNat (a : Addr) : (encode (.peek a)).toNat = 0x6000 + 256 * a.toNat := by
  revert a
  decide

theorem decode_encode_peek (a : Addr) : decode (encode (.peek a)) = .ok (.peek a) := by
  revert a
  decide

/-- Settles O1: a write is dispatched by its address to its own row, and the other three operations have words of their
own. -/
theorem decodeOfEncode : Obligations.DecodeOfEncode := by
  intro i hwf
  by_cases hw : i.isWrite = true
  · obtain ⟨a, v, henc, hdec⟩ := encode_eq_encodeWrite hw
    rw [henc, decode_encodeWrite, hdec hwf]
  · cases i with
    | tick => rfl
    | reset => rfl
    | peek a => exact decode_encode_peek a
    | _ => exact absurd rfl hw

/-- The write a pair of address and byte is dispatched to is a well-formed write, and its word is that of the pair. -/
theorem decodeWrite_spec (a : Addr) (v : Byte) :
    (decodeWrite a v).isWrite = true ∧ (decodeWrite a v).WellFormed ∧ encode (decodeWrite a v) = encodeWrite a v := by
  have ha := a.isLt
  obtain ⟨t, rfl, e⟩ | ⟨rfl, e⟩ | ⟨hl, hh, e⟩ | ⟨hl, hh, e⟩ | ⟨c, rfl, e⟩ | ⟨c, rfl, e⟩ | ⟨hl, e⟩ :=
    decodeWrite_cases a v <;> rw [e]
  · match t with
    | 0 => exact ⟨rfl, rfl, rfl⟩
    | 1 => exact ⟨rfl, rfl, rfl⟩
    | 2 => exact ⟨rfl, rfl, rfl⟩
  · exact ⟨rfl, rfl, rfl⟩
  · exact ⟨rfl, decide_eq_true ⟨hl, hh⟩, rfl⟩
  · exact ⟨rfl, decide_eq_true ⟨hl, hh⟩, rfl⟩
  · exact ⟨rfl, rfl, rfl⟩
  · exact ⟨rfl, rfl, rfl⟩
  · exact ⟨rfl, decide_eq_true ⟨hl, by omega⟩, rfl⟩

theorem opField_eq_iff (w : Hcw) (x : BitVec 3) : opField w = x ↔ w.toNat / 8192 = x.toNat := by
  rw [← BitVec.toNat_inj, opField_toNat]

theorem operandField_eq_zero_iff (w : Hcw) : operandField w = 0 ↔ w.toNat % 8192 = 0 := by
  rw [← BitVec.toNat_inj, operandField_toNat]
  rfl

theorem dataField_eq_zero_iff (w : Hcw) : dataField w = 0 ↔ w.toNat % 256 = 0 := by
  rw [← BitVec.toNat_inj, dataField_toNat]
  rfl

/-- The list of R320 for a word: OP 100–111, TICK or RESET with an operand, PEEK with a data byte. -/
abbrev ReservedWord (w : Hcw) : Prop :=
  4 ≤ w.toNat / 2 ^ 13 ∨
  ((w.toNat / 2 ^ 13 = 1 ∨ w.toNat / 2 ^ 13 = 2) ∧ w.toNat % 2 ^ 13 ≠ 0) ∨
  (w.toNat / 2 ^ 13 = 3 ∧ w.toNat % 2 ^ 8 ≠ 0)

/-- What a word is, by its fields (R301–R305, R320): one of the four operations, or reserved. -/
theorem decode_cases (w : Hcw) :
    (w.toNat / 8192 = 0 ∧ decode w = .ok (decodeWrite (addrField w) (dataField w))) ∨
    (w = encode .tick ∧ decode w = .ok .tick) ∨
    (w = encode .reset ∧ decode w = .ok .reset) ∨
    (w = encode (.peek (addrField w)) ∧ decode w = .ok (.peek (addrField w))) ∨
    (ReservedWord w ∧ ∃ e, decode w = .error e) := by
  unfold decode ReservedWord
  simp only [opField_eq_iff, operandField_eq_zero_iff, dataField_eq_zero_iff, BitVec.toNat_ofNat]
  split
  · exact .inl ⟨‹_›, rfl⟩
  split
  · split
    · have tick : (encode .tick).toNat = 8192 := rfl
      exact .inr (.inl ⟨BitVec.eq_of_toNat_eq (by omega), rfl⟩)
    · exact .inr (.inr (.inr (.inr ⟨by omega, _, rfl⟩)))
  split
  · split
    · have reset : (encode .reset).toNat = 16384 := rfl
      exact .inr (.inr (.inl ⟨BitVec.eq_of_toNat_eq (by omega), rfl⟩))
    · exact .inr (.inr (.inr (.inr ⟨by omega, _, rfl⟩)))
  split
  · split
    · have peek : w.toNat = (encode (.peek (addrField w))).toNat := by
        rw [encode_peek_toNat, addrField_toNat]
        omega
      exact .inr (.inr (.inr (.inl ⟨BitVec.eq_of_toNat_eq peek, rfl⟩)))
    · exact .inr (.inr (.inr (.inr ⟨by omega, _, rfl⟩)))
  · exact .inr (.inr (.inr (.inr ⟨by omega, _, rfl⟩)))

/-- Settles O2: the WRITE words are their fields, the words of TICK, RESET and PEEK are fixed by the decoder's checks. -/
theorem encodeOfDecode : Obligations.EncodeOfDecode := by
  intro w i hd
  obtain ⟨h0, e⟩ | ⟨hw, e⟩ | ⟨hw, e⟩ | ⟨hw, e⟩ | ⟨-, x, e⟩ := decode_cases w <;> rw [e] at hd <;> cases hd
  · obtain ⟨-, hwf, henc⟩ := decodeWrite_spec (addrField w) (dataField w)
    exact ⟨hwf, henc.trans (encodeWrite_fields ((opField_eq_iff w _).mpr h0))⟩
  · exact ⟨rfl, hw.symm⟩
  · exact ⟨rfl, hw.symm⟩
  · exact ⟨rfl, hw.symm⟩

/-- The decoder rejects a word exactly when R320 lists it. -/
theorem decode_error_iff (w : Hcw) : (∃ e, decode w = .error e) ↔ ReservedWord w := by
  obtain ⟨h0, e⟩ | ⟨hw, e⟩ | ⟨hw, e⟩ | ⟨hw, e⟩ | ⟨hr, x, e⟩ := decode_cases w
  · rw [e]
    simp only [reduceCtorEq, exists_false, false_iff]
    unfold ReservedWord
    omega
  · rw [e, hw]
    exact iff_of_false (fun ⟨_, h⟩ => nomatch h) (by decide)
  · rw [e, hw]
    exact iff_of_false (fun ⟨_, h⟩ => nomatch h) (by decide)
  · have hpeek := encode_peek_toNat (addrField w)
    rw [← hw] at hpeek
    have := (addrField w).isLt
    rw [e]
    simp only [reduceCtorEq, exists_false, false_iff]
    unfold ReservedWord
    omega
  · exact iff_of_true ⟨x, e⟩ hr

/-- Settles O4: no word the decoder accepts is on R320's list, and every other word is. -/
theorem reservedWords : Obligations.ReservedWords := decode_error_iff

/-- Settles O3: each word is evaluated by the decoder. -/
theorem wordsOfTheSpecDecode : Obligations.WordsOfTheSpecDecode := by
  unfold Obligations.WordsOfTheSpecDecode
  decide

/-! ### The opcode map (R308) -/

/-- The row's pattern fixes the operation field and, but for the WRITE rows, every field that R320 checks. -/
theorem opcodeRows_fields : ∀ r ∈ opcodeRows, opField r.mask = 0b111#3 ∧
    (opField r.pattern = 0b000#3 ∨
      ((opField r.pattern = 0b001#3 ∨ opField r.pattern = 0b010#3) ∧ operandField r.mask = 0x1FFF#13 ∧
        operandField r.pattern = 0) ∨
      (opField r.pattern = 0b011#3 ∧ dataField r.mask = 0xFF#8 ∧ dataField r.pattern = 0)) := by
  decide

/-- The rows are disjoint: no word matches two of them. -/
theorem opcodeRows_disjoint : ∀ r ∈ opcodeRows, ∀ r' ∈ opcodeRows,
    r.pattern &&& r'.mask = r'.pattern &&& r.mask → r = r' := by
  decide

theorem OpcodeRow.covers_iff (r : OpcodeRow) (w : Hcw) : r.covers w = true ↔ w &&& r.mask = r.pattern := beq_iff_eq

theorem OpcodeRow.eq_of_covers {r r' : OpcodeRow} {w : Hcw} (hr : r ∈ opcodeRows) (hr' : r' ∈ opcodeRows)
    (h : r.covers w = true) (h' : r'.covers w = true) : r = r' := by
  rw [OpcodeRow.covers_iff] at h h'
  refine opcodeRows_disjoint r hr r' hr' ?_
  rw [← h, ← h', BitVec.and_assoc, BitVec.and_assoc, BitVec.and_comm r.mask]

/-- A field that lies whole under the mask is the pattern's. -/
theorem extractLsb'_of_mask {w m p : Hcw} {start len : Nat} (h : w &&& m = p)
    (hm : m.extractLsb' start len = BitVec.allOnes len) : w.extractLsb' start len = p.extractLsb' start len := by
  rw [← h, BitVec.extractLsb'_and, hm, BitVec.and_allOnes]

/-- A word that matches a row is not reserved: the masks hold the bits that R320 speaks of. -/
theorem decode_of_covers {r : OpcodeRow} {w : Hcw} (hr : r ∈ opcodeRows) (h : r.covers w = true) :
    ∃ i, decode w = .ok i := by
  rw [OpcodeRow.covers_iff] at h
  obtain ⟨hmask, hfields⟩ := opcodeRows_fields r hr
  have hop : opField w = opField r.pattern := extractLsb'_of_mask h hmask
  obtain h0 | ⟨h12, hm, h0⟩ | ⟨h3, hm, h0⟩ := hfields
  · exact ⟨decodeWrite (addrField w) (dataField w), by simp [decode, hop, h0]⟩
  · have hoperand : operandField w = 0 := (extractLsb'_of_mask h hm).trans h0
    obtain h1 | h2 := h12
    · exact ⟨.tick, by simp [decode, hop, h1, hoperand]⟩
    · exact ⟨.reset, by simp [decode, hop, h2, hoperand]⟩
  · have hdata : dataField w = 0 := (extractLsb'_of_mask h hm).trans h0
    exact ⟨.peek (addrField w), by simp [decode, hop, h3, hdata]⟩

/-- No two rows have the same mnemonic. -/
theorem OpcodeRow.mnemonic_injective : ∀ r ∈ opcodeRows, ∀ r' ∈ opcodeRows, r.mnemonic = r'.mnemonic → r = r' := by
  decide

theorem rowWord : ∀ i : Instr, Laws.RowWord.Statement i := by
  intro i
  cases i with
  | wrFreq0 v => exact Laws.RowWord.wrFreq0 v
  | wrFreq1 v => exact Laws.RowWord.wrFreq1 v
  | wrFreq2 v => exact Laws.RowWord.wrFreq2 v
  | wrTctl v => exact Laws.RowWord.wrTctl v
  | wrUnmapped0407 a v => exact Laws.RowWord.wrUnmapped0407 a v
  | wrUnmapped080F a v => exact Laws.RowWord.wrUnmapped080F a v
  | wrVolPan c v => exact Laws.RowWord.wrVolPan c v
  | wrWave c v => exact Laws.RowWord.wrWave c v
  | wrUnmapped181F a v => exact Laws.RowWord.wrUnmapped181F a v
  | tick => exact Laws.RowWord.tick
  | reset => exact Laws.RowWord.reset
  | peek a => exact Laws.RowWord.peek a

/-- A word that decodes lies in the row of its instruction. -/
theorem covers_of_decode {w : Hcw} {i : Instr} (hd : decode w = .ok i) :
    ∃ r ∈ opcodeRows, r.mnemonic = i.mnemonic ∧ r.covers w = true := by
  obtain ⟨hwf, rfl⟩ := encodeOfDecode w i hd
  exact rowWord i hwf

/-- A word is a register write exactly when its operation field is 000 (R302). -/
theorem isWrite_of_decode {w : Hcw} {i : Instr} (hd : decode w = .ok i) :
    i.isWrite = true ↔ w.toNat / 8192 = 0 := by
  obtain ⟨h0, e⟩ | ⟨hw, e⟩ | ⟨hw, e⟩ | ⟨hw, e⟩ | ⟨-, x, e⟩ := decode_cases w <;> rw [e] at hd <;> cases hd
  · exact iff_of_true (decodeWrite_spec _ _).1 h0
  · rw [hw]
    decide
  · rw [hw]
    decide
  · rw [hw, encode_peek_toNat]
    simp only [Instr.isWrite, Bool.false_eq_true, false_iff]
    omega

/-- Settles O5: every word that decodes lies in its own row, every word of a row decodes, and no word lies in two rows. -/
theorem opcodeMapAgreesWithDecoder : Obligations.OpcodeMapAgreesWithDecoder := by
  refine ⟨fun r hr w => ⟨fun hc => ?_, fun ⟨i, hd, hm⟩ => ?_⟩, fun w => ⟨fun h => ?_, fun ⟨i, hd, hi⟩ => ?_⟩⟩
  · obtain ⟨i, hd⟩ := decode_of_covers hr hc
    obtain ⟨r', hr', hm', hc'⟩ := covers_of_decode hd
    rw [OpcodeRow.eq_of_covers hr hr' hc hc']
    exact ⟨i, hd, hm'.symm⟩
  · obtain ⟨r', hr', hm', hc'⟩ := covers_of_decode hd
    rwa [OpcodeRow.mnemonic_injective r hr r' hr' (hm.symm.trans hm'.symm)]
  · have h0 : w.toNat / 8192 = 0 := by omega
    have hd : decode w = .ok (decodeWrite (addrField w) (dataField w)) := by
      rw [← decode_encodeWrite, encodeWrite_fields ((opField_eq_iff w _).mpr h0)]
    exact ⟨_, hd, (isWrite_of_decode hd).mpr h0⟩
  · have h0 := (isWrite_of_decode hd).mp hi
    omega

end Sys2Proof
end

section
/-! SUPPORT. Proofs about the step and the refusals: what every step performs, and what a refused operation leaves. -/

namespace Sys2Proof.Machine

open Sys2Proof

/-! ### The step and the host's list of operations (spec/10_state.md R102) -/

theorem State.fetch_of_pending {s : State} {r : Request} {rest : List Request} (h : s.pending = r :: rest) :
    s.fetch = some r := by
  rw [State.fetch, h]
  rfl

theorem State.pending_of_fetch {s : State} {r : Request} (h : s.fetch = some r) :
    s.pending = r :: s.pending.tail := List.eq_cons_of_mem_head? h

theorem State.fetch_eq_none {s : State} : s.fetch = none ↔ s.pending = [] := List.head?_eq_none_iff

theorem State.advance_of_pending {s : State} {r : Request} {rest : List Request} (h : s.pending = r :: rest) :
    s.advance = { s with pending := rest, pos := s.pos + 1 } := by
  rw [State.advance, h]
  rfl

/-- Settles O6: the word is fetched, and `advance` is the state with the request taken. -/
theorem stepRunsDecodedInstruction : Obligations.StepRunsDecodedInstruction := by
  intro s w i rest hp hd
  rw [step_of_decode (State.fetch_of_pending hp) hd, State.advance_of_pending hp]

/-- Settles O7: with nothing pending the step performs the identity. -/
theorem idleStepKeepsState : Obligations.IdleStepKeepsState := by
  intro s ⟨hv, hu⟩ hp
  rw [step_of_empty (State.fetch_eq_none.mpr hp)]
  exact perform_of_ready hv hu

/-- Settles O8: a step that completes ran the effect of the first request, which reads neither the list nor the position,
or was idle. -/
theorem stepTakesOneOperation : Obligations.StepTakesOneOperation := by
  intro s t h
  obtain ⟨-, -, ⟨w, i, hf, -, rfl⟩ | ⟨hf, rfl⟩⟩ := step_next_cases h
  · obtain ⟨-, hpending, hpos⟩ := effectOf_keeps i s.advance
    refine .inr ⟨.word w, ?_, hpos⟩
    rw [hpending]
    exact State.pending_of_fetch hf
  · exact .inl ⟨State.fetch_eq_none.mp hf, rfl⟩

@[simp] theorem effectOf_config (i : Instr) (s : State) : (effectOf i s).config = s.config := by
  obtain ⟨hconfig, -, -⟩ := effectOf_keeps i s
  exact hconfig

@[simp] theorem effectOf_pending (i : Instr) (s : State) : (effectOf i s).pending = s.pending := by
  obtain ⟨-, hpending, -⟩ := effectOf_keeps i s
  exact hpending

theorem step_keeps_config {s t : State} (h : step s = .next t) : t.config = s.config := by
  obtain ⟨-, -, ⟨w, i, -, -, rfl⟩ | ⟨-, rfl⟩⟩ := step_next_cases h
  · exact effectOf_config i s.advance
  · rfl

/-- Settles O9: the effect of an instruction, RESET among them, keeps the configuration, and so does an idle step. -/
theorem configurationIsFixed : Obligations.ConfigurationIsFixed := fun _ _ => step_keeps_config

/-! ### The refusal mark (R140) -/

theorem Block.raise_of_marked {b : Block} {r : RefusalReason} (h : b.refused = some r) (r' : RefusalReason) :
    (b.raise r').refused = some r := by
  rw [Block.raise_refused, h]
  rfl

theorem Block.raise_of_unmarked {b : Block} (h : b.refused = none) (r : RefusalReason) :
    b.raise r = { b with refused := some r } := by
  rw [Block.raise, h]
  rfl

theorem Block.ctrlWrite_marked {b : Block} {r : RefusalReason} (h : b.refused = some r) (v : Byte) :
    (b.ctrlWrite v).refused = some r := by
  obtain ⟨t, -, e⟩ | ⟨-, r', e⟩ := b.ctrlWrite_cases v
  · rw [e]
    exact h
  · rw [e]
    exact Block.raise_of_marked h r'

theorem Block.dataWrite_marked {b : Block} {r : RefusalReason} (h : b.refused = some r) (t : TimerIx) (v : Byte) :
    (b.dataWrite t v).refused = some r := by
  obtain ⟨-, e⟩ | ⟨-, e⟩ := b.dataWrite_cases t v
  · rw [e]
    exact h
  · rw [e]
    exact Block.raise_of_marked h _

/-- No instruction changes a mark that is set. -/
theorem effectOf_marked {s : State} {r : RefusalReason} (h : s.block.refused = some r) (i : Instr) :
    (effectOf i s).block.refused = some r := by
  cases i with
  | wrFreq0 v => exact Block.dataWrite_marked (b := s.block.setMirror _ v) h 0 v
  | wrFreq1 v => exact Block.dataWrite_marked (b := s.block.setMirror _ v) h 1 v
  | wrFreq2 v => exact Block.dataWrite_marked (b := s.block.setMirror _ v) h 2 v
  | wrTctl v => exact Block.ctrlWrite_marked (b := s.block.setMirror _ v) h v
  | tick => exact (Block.tick_refused s.config s.block).trans h
  | _ => exact h

/-- Every step performs an effect that keeps a mark, on a state with its block and
configuration. -/
theorem step_eq_perform (s : State) : ∃ s' effect, step s = perform s' effect ∧ s'.block = s.block ∧
    s'.config = s.config ∧ ∀ r, s'.block.refused = some r → (effect s').block.refused = some r := by
  obtain ⟨w, i, -, -, he⟩ | ⟨w, e, -, -, he⟩ | ⟨r, -, he⟩ | ⟨-, he⟩ := step_cases s
  · exact ⟨s.advance, effectOf i, he.trans (exec_eq_perform i _), rfl, rfl, fun r h => effectOf_marked h i⟩
  · exact ⟨s.advance, _, he, rfl, rfl, fun r h => Block.raise_of_marked h _⟩
  · exact ⟨s.advance, _, he, rfl, rfl, fun r h => Block.raise_of_marked h _⟩
  · exact ⟨s, id, he, rfl, rfl, fun r h => h⟩

/-- Settles O10: under a valid configuration the effect keeps the mark, under an invalid one `BadConfig` does not replace
it. -/
theorem refusalIsSticky : Obligations.RefusalIsSticky := by
  intro s r hmark
  obtain ⟨s', effect, hstep, hblock, -, hkeeps⟩ := step_eq_perform s
  rw [← hblock] at hmark
  rw [hstep]
  cases hv : s'.config.valid with
  | true => exact ⟨_, perform_of_marked hv (hkeeps r hmark), hkeeps r hmark⟩
  | false =>
    refine ⟨s'.raise .badConfig, ?_, Block.raise_of_marked hmark _⟩
    rw [perform_of_invalid hv, hmark]
    rfl

/-- The check of R611 fails in each of the three cases it names. -/
theorem Config.valid_eq_false {cfg : Config}
    (h : 2 < cfg.clockSel ∨ (cfg.clockSel = 2 ∧ cfg.noiseRate = 0) ∨ cfg.chipClock = 0) : cfg.valid = false := by
  obtain h | ⟨h, h'⟩ | h := h
  · simp [Config.valid, Nat.not_le.mpr h]
  · simp [Config.valid, h, h']
  · simp [Config.valid, h]

/-- Settles O11: every step performs an effect, and under an invalid configuration that is `BadConfig` alone. -/
theorem invalidConfigurationIsRefused : Obligations.InvalidConfigurationIsRefused := by
  intro s hunmarked hinvalid
  obtain ⟨s', effect, hstep, hblock, hconfig, -⟩ := step_eq_perform s
  rw [← hconfig] at hinvalid
  rw [← hblock] at hunmarked ⊢
  refine ⟨s'.raise .badConfig, ?_, Block.raise_of_unmarked hunmarked _⟩
  rw [hstep, perform_of_invalid (Config.valid_eq_false hinvalid), hunmarked]
  rfl

/-- An operation that only raises, in a ready state: the refusal with its reason. -/
theorem perform_raise {s : State} (hr : s.Ready) (r : RefusalReason) :
    perform s (·.raise r) = .refused (.raised r (s.raise r)) := by
  obtain ⟨hv, hu⟩ := hr
  refine perform_of_marked hv ?_
  rw [State.raise_block, Block.raise_of_unmarked hu]

/-- Settles O12: the decoder rejects the word, and the step raises on the state with the request taken. -/
theorem reservedWordIsRefused : Obligations.ReservedWordIsRefused := by
  intro s w rest hr hp hreserved
  obtain ⟨e, hd⟩ := (decode_error_iff w).mpr hreserved
  refine ⟨s.advance.raise .reservedCommand, ?_, Block.raise_of_unmarked hr.2 _, rfl⟩
  rw [step_of_reserved (State.fetch_of_pending hp) hd]
  exact perform_raise (s := s.advance) hr _

/-! ### Host operations out of range (R203, R480, R600) -/

theorem expandWrite_in_range {a v : Nat} (ha : a < 32) (hv : v < 256) :
    expandWrite a v = [wr (BitVec.ofNat 5 a) (BitVec.ofNat 8 v)] := if_pos ⟨ha, hv⟩

theorem expandWrite_out_of_range {a v : Nat} (h : 32 ≤ a ∨ 256 ≤ v) : expandWrite a v = [.refuse .portRange] :=
  if_neg (by omega)

theorem expandPeek_out_of_range {a : Nat} (h : 32 ≤ a) : expandPeek a = [.refuse .portRange] := if_neg (by omega)

theorem expandSetFreq_out_of_range {c : Nat} (h : 3 ≤ c) (f : BitVec 16) :
    expandSetFreq c f = [.refuse .channelRange] := dif_neg (by omega)

theorem expandChannelWrite_in_range {c : Nat} (h : c < 4) (base v : Nat) :
    expandChannelWrite base c v = expandWrite (base + c) v := if_pos h

theorem expandChannelWrite_channel_range {c : Nat} (h : 4 ≤ c) (base v : Nat) :
    expandChannelWrite base c v = [.refuse .channelRange] := if_neg (by omega)

theorem expandChannelWrite_port_range {c v : Nat} (h : c < 4) (hv : 256 ≤ v) (base : Nat) :
    expandChannelWrite base c v = [.refuse .portRange] := by
  rw [expandChannelWrite_in_range h, expandWrite_out_of_range (.inr hv)]

/-- A refusing entry of the host's list marks the block with its reason and does nothing else. -/
theorem step_refuse {s : State} {r : RefusalReason} {rest : List Request} (hr : s.Ready)
    (hp : s.pending = [.refuse r] ++ rest) :
    ∃ left, step s = .refused (.raised r left) ∧ left.block = { s.block with refused := some r } ∧
      left.received = s.received ∧ left.config = s.config := by
  refine ⟨s.advance.raise r, ?_, Block.raise_of_unmarked hr.2 _, rfl, rfl⟩
  rw [step_of_refuse (State.fetch_of_pending hp)]
  exact perform_raise (s := s.advance) hr r

/-- Settles O15: each operation out of range expands to one refusing entry. -/
theorem outOfRangeRequestChangesNothing : Obligations.OutOfRangeRequestChangesNothing := by
  intro s op r rest hr hp hop
  have hexpand : op.expand = [.refuse r] := by
    obtain ⟨rfl, ⟨c, f, rfl, hc⟩ | ⟨c, b, rfl, hc⟩ | ⟨c, w, rfl, hc⟩⟩ |
      ⟨rfl, ⟨a, v, rfl | rfl, h⟩ | ⟨a, rfl, h⟩ | ⟨c, v, rfl | rfl, hc, hv⟩⟩ := hop
    · exact expandSetFreq_out_of_range hc f
    · exact expandChannelWrite_channel_range hc _ b
    · exact expandChannelWrite_channel_range hc _ w
    · exact expandWrite_out_of_range h
    · exact expandWrite_out_of_range h
    · exact expandPeek_out_of_range h
    · exact expandChannelWrite_port_range hc hv _
    · exact expandChannelWrite_port_range hc hv _
  rw [hexpand] at hp
  exact step_refuse hr hp

/-! ### Expansions in range (R601–R605, R340) -/

/-- A write inside the ports is its WRITE word (R302, R340). -/
theorem expandWrite_word {a v : Nat} (ha : a < 32) (hv : v < 256) :
    ∃ w, expandWrite a v = [.word w] ∧ w.toNat = 256 * a + v := by
  refine ⟨_, expandWrite_in_range ha hv, ?_⟩
  rw [encodeWrite_toNat, BitVec.toNat_ofNat, BitVec.toNat_ofNat, Nat.mod_eq_of_lt ha, Nat.mod_eq_of_lt hv]

/-- A channel write inside the ports is the WRITE word of its channel's register. -/
theorem expandChannelWrite_word {base c v : Nat} (hbase : base + 3 < 32) (hc : c ≤ 3) (hv : v < 256) :
    ∃ w, expandChannelWrite base c v = [.word w] ∧ w.toNat = 256 * (base + c) + v := by
  rw [expandChannelWrite_in_range (by omega)]
  exact expandWrite_word (by omega) hv

/-- Settles O44: the registers 0x10–0x13 lie inside the ports. -/
theorem setVolPanExpansion : Obligations.SetVolPanExpansion := fun _ b =>
  ⟨fun hc hb => expandChannelWrite_word (by omega) hc hb, fun hc => expandChannelWrite_channel_range hc 0x10 b,
    fun hc hb => expandChannelWrite_port_range (by omega) hb 0x10⟩

/-- Settles O45: the registers 0x14–0x17 lie inside the ports. -/
theorem setWaveExpansion : Obligations.SetWaveExpansion := fun _ v =>
  ⟨fun hc hv => expandChannelWrite_word (by omega) hc hv, fun hc => expandChannelWrite_channel_range hc 0x14 v,
    fun hc hv => expandChannelWrite_port_range (by omega) hv 0x14⟩

/-- Settles O46: a poke is its write. -/
theorem pokeExpansion : Obligations.PokeExpansion := fun _ _ => ⟨expandWrite_word, expandWrite_out_of_range⟩

/-- Settles O59: the words of the two operations as numbers. -/
theorem writeAndPeekExpansion : Obligations.WriteAndPeekExpansion := by
  refine fun a v => ⟨expandWrite_word, expandWrite_out_of_range, fun ha => ?_, expandPeek_out_of_range⟩
  refine ⟨encode (.peek (BitVec.ofNat 5 a)), if_pos ha, ?_⟩
  rw [encode_peek_toNat, BitVec.toNat_ofNat, Nat.mod_eq_of_lt ha]

end Sys2Proof.Machine
end

section
/-! SUPPORT. Proofs about the register writes (spec/40_timer_writes.md, spec/41_channel_writes.md): what each completes or
refuses with, and what it leaves unchanged. -/

namespace Sys2Proof.Machine

open Sys2Proof

/-! ### The fields of a control byte (spec/30_encoding.md R306) -/

theorem ctrlSelect_toNat (v : Byte) : (ctrlSelect v).toNat = v.toNat / 64 := by
  have := v.isLt
  simp only [ctrlSelect, BitVec.extractLsb'_toNat, Nat.shiftRight_eq_div_pow]
  omega

theorem modeBits_toNat (v : Byte) : (modeBits v).toNat = v.toNat % 64 := by
  simp [modeBits, BitVec.extractLsb'_toNat]

theorem modeBits_eq_squareWave (v : Byte) : modeBits v = squareWaveMode ↔ v.toNat % 64 = 0x34 := by
  rw [← BitVec.toNat_inj, modeBits_toNat]
  rfl

theorem Timer.programmed_iff (tm : Timer) : tm.Programmed ↔ tm.ctrl.toNat % 64 = 0x34 := modeBits_eq_squareWave tm.ctrl

theorem controlByte_toNat (t : TimerIx) : (controlByte t).toNat = 0x34 + 64 * t.val := by
  revert t
  decide

theorem selectedTimer_eq_none_iff (v : Byte) : selectedTimer v = none ↔ v.toNat / 64 = 3 := by
  have := v.isLt
  simp only [selectedTimer, dite_eq_right_iff, reduceCtorEq, imp_false, ctrlSelect_toNat]
  omega

/-! ### The control and data writes on the block (R400, R401, R410, R411) -/

theorem Block.ctrlWrite_select3 (b : Block) {v : Byte} (h : v.toNat / 64 = 3) : b.ctrlWrite v = b.raise .ctrlSelect3 := by
  rw [Block.ctrlWrite, (selectedTimer_eq_none_iff v).mpr h]

theorem Block.ctrlWrite_mode (b : Block) {v : Byte} (hs : v.toNat / 64 ≠ 3) (hm : v.toNat % 64 ≠ 0x34) :
    b.ctrlWrite v = b.raise (.ctrlMode v) := by
  obtain ⟨t, ht⟩ := Option.ne_none_iff_exists'.mp (mt (selectedTimer_eq_none_iff v).mp hs)
  simp only [Block.ctrlWrite, ht, if_neg (mt (modeBits_eq_squareWave v).mp hm)]

theorem Block.ctrlWrite_controlByte (b : Block) (t : TimerIx) :
    b.ctrlWrite (controlByte t) = b.modifyTimer t (·.control (controlByte t)) := by
  simp [Block.ctrlWrite]

theorem Block.dataWrite_programmed {b : Block} {t : TimerIx} (h : (b.timerAt t).Programmed) (v : Byte) :
    b.dataWrite t v = b.modifyTimer t (·.dataByte v) := if_pos h

theorem Block.dataWrite_unprogrammed {b : Block} {t : TimerIx} (h : ¬(b.timerAt t).Programmed) (v : Byte) :
    b.dataWrite t v = b.raise (.dataBeforeCtrl t) := if_neg h

/-! ### What a write leaves unchanged -/

theorem State.sameHost_onBlock (s : State) (f : Block → Block) : s.SameHost (s.onBlock f) := ⟨rfl, rfl, rfl, rfl⟩

theorem Block.mirrorAt_congr {b b' : Block} (h : b'.mirror = b.mirror) (a : Addr) : b'.mirrorAt a = b.mirrorAt a := by
  rw [Block.mirrorAt, Block.mirrorAt]
  simp only [h]

/-- A block whose mirror is that of a mirror write holds the byte at its address and the old bytes elsewhere. -/
theorem Block.mirrorAt_of_write {b b' : Block} {a : Addr} {v : Byte} (h : b'.mirror = (b.setMirror a v).mirror) :
    b'.mirrorAt a = v ∧ b.MirrorSameBut a b' :=
  ⟨(Block.mirrorAt_congr h a).trans (b.setMirror_mirrorAt_same a v), fun a' ha =>
    (Block.mirrorAt_congr h a').trans (b.setMirror_mirrorAt_ne a a' v ha)⟩

/-- A register write whose rule raises in an unmarked block is refused, and only its mirror write and the mark are left. -/
theorem refused_write {s : State} (hr : s.Ready) {a : Addr} {v : Byte} {f : Block → Block} {r : RefusalReason}
    (hf : f s.block = (s.block.setMirror a v).raise r) :
    ∃ left, perform s (·.onBlock f) = .refused (.raised r left) ∧ left.block.mirrorAt a = v ∧
      s.block.MirrorSameBut a left.block ∧ s.block.TimersSame left.block ∧ s.block.ChannelsSame left.block ∧
      s.block.NoiseSame left.block ∧ s.SameHost left := by
  obtain ⟨hv, hu⟩ := hr
  have hblock : (s.onBlock f).block = (s.block.setMirror a v).raise r := hf
  obtain ⟨hsame, hbut⟩ := Block.mirrorAt_of_write (b := s.block) (b' := (s.block.setMirror a v).raise r) rfl
  refine ⟨s.onBlock f, perform_of_marked hv ?_, ?_⟩
  · rw [hblock, Block.raise_of_unmarked (b := s.block.setMirror a v) hu]
  · rw [hblock]
    exact ⟨hsame, hbut, fun _ => rfl, ⟨fun _ => rfl, fun _ => rfl⟩, ⟨rfl, rfl⟩, s.sameHost_onBlock f⟩

/-- Settles O13: both refused forms raise on the block whose mirror is written. -/
theorem controlWriteRefusals : Obligations.ControlWriteRefusals := by
  intro v s hr hform
  refine refused_write (a := tctlAddr) (f := fun b => (b.setMirror tctlAddr v).ctrlWrite v) hr ?_
  split
  · exact Block.ctrlWrite_select3 _ ‹_›
  · exact Block.ctrlWrite_mode _ ‹_› (hform.resolve_left ‹_›)

/-- Settles O14: the timer is not programmed, so the data write raises on the block whose mirror is written. -/
theorem dataBeforeControlIsRefused : Obligations.DataBeforeControlIsRefused := by
  intro t v s hr hctrl
  rw [exec_wrFreq]
  exact refused_write hr (Block.dataWrite_unprogrammed (b := s.block.setMirror _ v) (mt (Timer.programmed_iff _).mp hctrl) v)

/-- The mirror after a register write is that of its mirror write, whatever its rule does (R103, R300). -/
theorem effectOf_write_mirror {i : Instr} (hi : i.isWrite = true) (s : State) :
    (effectOf i s).block.mirror = (s.block.setMirror (addrField (encode i)) (dataField (encode i))).mirror := by
  cases i with
  | tick => cases hi
  | reset => cases hi
  | peek a => cases hi
  | _ => simp [effectOf, encode, freqAddr, tctlAddr]

theorem effectOf_write_sameHost {i : Instr} (hi : i.isWrite = true) (s : State) : s.SameHost (effectOf i s) := by
  cases i with
  | tick => cases hi
  | reset => cases hi
  | peek a => cases hi
  | _ => exact ⟨rfl, rfl, rfl, rfl⟩

/-- In a ready state an instruction whose effect raises nothing completes with it. -/
theorem exec_of_ready {i : Instr} {s : State} (hr : s.Ready) (hu : (effectOf i s).block.refused = none) :
    exec i s = .next (effectOf i s) := by
  rw [exec_eq_perform]
  exact perform_of_ready hr.1 hu

/-- Under a valid configuration an operation ends in the state of its effect, as the next state or in a refusal. -/
theorem perform_of_valid {s : State} (hv : s.config.valid = true) (effect : State → State) :
    perform s effect = .next (effect s) ∨ ∃ r, perform s effect = .refused (.raised r (effect s)) := by
  cases h : (effect s).block.refused with
  | none => exact .inl (perform_of_ready hv h)
  | some r => exact .inr ⟨r, perform_of_marked hv h⟩

/-- Settles O16: a completed and a refused write both end in the state of the effect, whose mirror is the write's. -/
theorem writeAlwaysLandsInMirror : Obligations.WriteAlwaysLandsInMirror := by
  intro i s hi ⟨hv, _⟩
  rw [exec_eq_perform]
  exact ⟨effectOf i s, perform_of_valid hv _, Block.mirrorAt_of_write (effectOf_write_mirror hi s)⟩

/-! ### The writes that program a timer -/

/-- The state after a register write that changes one timer. -/
def State.writeTimer (s : State) (a : Addr) (v : Byte) (t : TimerIx) (f : Timer → Timer) : State :=
  s.onBlock fun b => (b.setMirror a v).modifyTimer t f

@[simp] theorem State.writeTimer_timerAt (s : State) (a : Addr) (v : Byte) (t : TimerIx) (f : Timer → Timer) :
    (s.writeTimer a v t f).block.timerAt t = f (s.block.timerAt t) :=
  (s.block.setMirror a v).modifyTimer_timerAt_same t f

/-- A timer write changes its timer and its mirror byte only. -/
theorem State.writeTimer_frame {s : State} (hu : s.block.refused = none) (a : Addr) (v : Byte) (t : TimerIx)
    (f : Timer → Timer) :
    s.block.TimersSameBut t (s.writeTimer a v t f).block ∧ (s.writeTimer a v t f).block.mirrorAt a = v ∧
      s.block.MirrorSameBut a (s.writeTimer a v t f).block ∧ s.block.ChannelsSame (s.writeTimer a v t f).block ∧
      s.block.NoiseSame (s.writeTimer a v t f).block ∧ (s.writeTimer a v t f).block.refused = none ∧
      s.SameHost (s.writeTimer a v t f) := by
  obtain ⟨hsame, hbut⟩ := Block.mirrorAt_of_write (b := s.block) (b' := (s.writeTimer a v t f).block) rfl
  exact ⟨fun u hne => (s.block.setMirror a v).modifyTimer_timerAt_ne t u f hne, hsame, hbut,
    ⟨fun _ => rfl, fun _ => rfl⟩, ⟨rfl, rfl⟩, hu, s.sameHost_onBlock _⟩

theorem exec_wrTctl_controlByte {s : State} (hr : s.Ready) (t : TimerIx) :
    exec (.wrTctl (controlByte t)) s = .next (s.writeTimer tctlAddr (controlByte t) t (·.control (controlByte t))) := by
  obtain ⟨hv, hu⟩ := hr
  have heffect : effectOf (.wrTctl (controlByte t)) s =
      s.writeTimer tctlAddr (controlByte t) t (·.control (controlByte t)) := by
    simp only [effectOf, State.onBlock, State.writeTimer, Block.ctrlWrite_controlByte]
  rw [exec_eq_perform, ← heffect]
  exact perform_of_ready hv (by rw [heffect]; exact hu)

theorem exec_wrFreq_programmed {s : State} (hr : s.Ready) {t : TimerIx} (hp : (s.block.timerAt t).Programmed) (v : Byte) :
    exec (.wrFreq t v) s = .next (s.writeTimer (freqAddr t) v t (·.dataByte v)) := by
  obtain ⟨hv, hu⟩ := hr
  have hblock : (s.block.setMirror (freqAddr t) v).dataWrite t v =
      (s.block.setMirror (freqAddr t) v).modifyTimer t (·.dataByte v) :=
    Block.dataWrite_programmed (b := s.block.setMirror (freqAddr t) v) hp v
  rw [exec_wrFreq, perform_of_ready hv (by rw [State.onBlock_block, hblock]; exact hu)]
  simp only [State.onBlock, State.writeTimer, hblock]

/-- Settles O17: the byte is the control byte of its timer. -/
theorem controlWriteProgramsTimer : Obligations.ControlWriteProgramsTimer := by
  intro t v s hr hbyte
  obtain rfl : v = controlByte t := BitVec.eq_of_toNat_eq (hbyte.trans (controlByte_toNat t).symm)
  exact ⟨_, exec_wrTctl_controlByte hr t, State.writeTimer_timerAt .., State.writeTimer_frame hr.2 ..⟩

/-- Settles O18: the pointer is at the low byte, so the data byte is the low one. -/
theorem lowByteIsLatched : Obligations.LowByteIsLatched := by
  intro t v s hr hctrl hlow
  refine ⟨_, exec_wrFreq_programmed hr ((Timer.programmed_iff _).mpr hctrl) v, ?_, State.writeTimer_frame hr.2 ..⟩
  rw [State.writeTimer_timerAt, Timer.dataByte_low hlow]
  rfl

theorem assembleReload_toNat (high latch : Byte) : (assembleReload high latch).toNat = 256 * high.toNat + latch.toNat := by
  have := latch.isLt
  rw [assembleReload, BitVec.toNat_append, ← Nat.shiftLeft_add_eq_or_of_lt this, Nat.shiftLeft_eq]
  omega

/-- Settles O19: the pointer is at the high byte, so the data byte loads and arms. -/
theorem highByteLoadsAndArms : Obligations.HighByteLoadsAndArms := by
  intro t v s hr hctrl hhigh
  have htimer : (s.writeTimer (freqAddr t) v t (·.dataByte v)).block.timerAt t = (s.block.timerAt t).highByte v := by
    rw [State.writeTimer_timerAt, Timer.dataByte_high hhigh]
  refine ⟨_, exec_wrFreq_programmed hr ((Timer.programmed_iff _).mpr hctrl) v, ?_, ?_, ?_, State.writeTimer_frame hr.2 ..⟩
  · rw [htimer]
    exact assembleReload_toNat v _
  · rw [htimer]
    exact Timer.highByte_count _ v
  · rw [htimer]
    rfl

/-- Settles O24: the first byte is latched, and the second is loaded above it. -/
theorem twoEqualDataBytesLoad : Obligations.TwoEqualDataBytesLoad := by
  intro t v s hr hctrl hlow
  obtain ⟨s₁, hexec₁, htimer₁, -, -, -, -, -, hu₁, hhost₁⟩ := lowByteIsLatched t v s hr hctrl hlow
  have hr₁ : s₁.Ready := ⟨hhost₁.config ▸ hr.1, hu₁⟩
  obtain ⟨s₂, hexec₂, hreload, -, htimer₂, -⟩ :=
    highByteLoadsAndArms t v s₁ hr₁ (by rw [htimer₁]; exact hctrl) (by rw [htimer₁])
  refine ⟨s₁, s₂, hexec₁, hexec₂, ?_, by rw [htimer₂], by rw [htimer₂]⟩
  have hlatch : (s₁.block.timerAt t).latch = v := by rw [htimer₁]
  rw [hreload, hlatch]
  omega

/-! ### The channel writes and the unmapped writes (R450, R455, R460) -/

/-- Settles O20: the effect is the mirror write and the register write. -/
theorem volPanWriteSetsRegister : Obligations.VolPanWriteSetsRegister := by
  intro c v s hr
  obtain ⟨hsame, hbut⟩ := Block.mirrorAt_of_write (b := s.block) (a := volPanAddr c) (v := v)
    (b' := (effectOf (.wrVolPan c v) s).block) rfl
  refine ⟨effectOf (.wrVolPan c v) s, exec_of_ready hr hr.2, ?_, fun d hd => ?_, fun _ => rfl, hsame, hbut,
    fun _ => rfl, ⟨rfl, rfl⟩, hr.2, effectOf_write_sameHost rfl s⟩
  · exact Block.setVolpan_volpanAt_same _ v c
  · exact Block.setVolpan_volpanAt_ne (s.block.setMirror _ v) v c d hd

/-- Settles O21: the effect is the mirror write and the register write. -/
theorem waveWriteSetsRegister : Obligations.WaveWriteSetsRegister := by
  intro c v s hr
  obtain ⟨hsame, hbut⟩ := Block.mirrorAt_of_write (b := s.block) (a := waveAddr c) (v := v)
    (b' := (effectOf (.wrWave c v) s).block) rfl
  refine ⟨effectOf (.wrWave c v) s, exec_of_ready hr hr.2, ?_, fun d hd => ?_, fun _ => rfl, hsame, hbut,
    fun _ => rfl, ⟨rfl, rfl⟩, hr.2, effectOf_write_sameHost rfl s⟩
  · exact Block.setWave_waveAt_same _ v c
  · exact Block.setWave_waveAt_ne (s.block.setMirror _ v) v c d hd

theorem Block.equalButMirror_setMirror (b : Block) (a : Addr) (v : Byte) : b.EqualButMirror (b.setMirror a v) :=
  ⟨rfl, rfl, rfl, ⟨rfl, rfl⟩, rfl⟩

/-- The three unmapped rows perform the mirror write alone. -/
theorem exec_unmapped {i : Instr} {a : Addr} {v : Byte}
    (hi : i = .wrUnmapped0407 a v ∨ i = .wrUnmapped080F a v ∨ i = .wrUnmapped181F a v) (s : State) :
    exec i s = perform s (·.onBlock (·.setMirror a v)) := by
  obtain rfl | rfl | rfl := hi <;> rfl

/-- Settles O22: the effect is the mirror write alone. -/
theorem unmappedWriteIsMirrorOnly : Obligations.UnmappedWriteIsMirrorOnly := by
  intro i a v s ⟨hv, hu⟩ hi
  obtain ⟨hsame, hbut⟩ := Block.mirrorAt_of_write (b := s.block) (a := a) (v := v) (b' := s.block.setMirror a v) rfl
  rw [exec_unmapped hi]
  exact ⟨s.onBlock (·.setMirror a v), perform_of_ready hv hu, hsame, hbut, s.block.equalButMirror_setMirror a v,
    s.sameHost_onBlock _⟩

/-! ### Writing twice (spec/20_memory.md R205) -/

@[simp] theorem Block.setMirror_setMirror (b : Block) (a : Addr) (v w : Byte) :
    (b.setMirror a v).setMirror a w = b.setMirror a w := by
  simp [Block.setMirror]

@[simp] theorem Block.modifyTimer_modifyTimer (b : Block) (t : TimerIx) (f g : Timer → Timer) :
    (b.modifyTimer t f).modifyTimer t g = b.modifyTimer t fun tm => g (f tm) := by
  simp [Block.modifyTimer, Block.timerAt]

@[simp] theorem Block.setVolpan_setVolpan (b : Block) (c : Channel) (v w : Byte) :
    (b.setVolpan c v).setVolpan c w = b.setVolpan c w := by
  simp [Block.setVolpan]

@[simp] theorem Block.setWave_setWave (b : Block) (c : Channel) (v w : Byte) :
    (b.setWave c v).setWave c w = b.setWave c w := by
  simp [Block.setWave]

/-- The mirror write and the change of another register of the block may be taken in either order. -/
theorem Block.modifyTimer_setMirror (b : Block) (t : TimerIx) (f : Timer → Timer) (a : Addr) (v : Byte) :
    (b.modifyTimer t f).setMirror a v = (b.setMirror a v).modifyTimer t f := rfl
theorem Block.setVolpan_setMirror (b : Block) (c : Channel) (w : Byte) (a : Addr) (v : Byte) :
    (b.setVolpan c w).setMirror a v = (b.setMirror a v).setVolpan c w := rfl
theorem Block.setWave_setMirror (b : Block) (c : Channel) (w : Byte) (a : Addr) (v : Byte) :
    (b.setWave c w).setMirror a v = (b.setMirror a v).setWave c w := rfl

/-- A completed write above the frequency addresses changes nothing when it is made again. -/
theorem effectOf_write_idem {i : Instr} {s : State} (hi : i.isWrite = true) (ha : 2 < (addrField (encode i)).toNat)
    (hu : (effectOf i s).block.refused = none) : effectOf i (effectOf i s) = effectOf i s := by
  cases i with
  | tick => cases hi
  | reset => cases hi
  | peek a => cases hi
  | wrFreq0 v => simp [encode] at ha
  | wrFreq1 v => simp [encode] at ha
  | wrFreq2 v => simp [encode] at ha
  | wrTctl v =>
    obtain ⟨-, t, rfl, -⟩ := Block.ctrlWrite_unmarked (b := s.block.setMirror tctlAddr v) hu
    simp only [effectOf, State.onBlock, Block.ctrlWrite_controlByte, Block.modifyTimer_setMirror,
      Block.setMirror_setMirror, Block.modifyTimer_modifyTimer]
    rfl
  | wrVolPan c v => simp [effectOf, State.onBlock, Block.setVolpan_setMirror]
  | wrWave c v => simp [effectOf, State.onBlock, Block.setWave_setMirror]
  | _ => simp [effectOf, State.onBlock]

/-- Settles O23: the second write finds the state its effect leaves, and that is a fixed point of the effect. -/
theorem writesAreIdempotentButData : Obligations.WritesAreIdempotentButData := by
  intro i s t hi _ ha hexec
  rw [exec_eq_perform, perform_eq_next] at hexec
  obtain ⟨hv, rfl, hu⟩ := hexec
  have hidem := effectOf_write_idem hi ha hu
  rw [exec_eq_perform, perform_eq_next, hidem, effectOf_config]
  exact ⟨hv, rfl, hu⟩

end Sys2Proof.Machine
end

section
/-! SUPPORT. Proofs about PEEK, RESET and the tick (spec/41_channel_writes.md section 4, spec/70_reset_and_hazards.md
section 1, spec/42_sample_tick.md). -/

namespace Sys2Proof.Machine

open Sys2Proof

/-! ### PEEK and RESET -/

/-- Settles O25: the effect of PEEK is the emission alone. -/
theorem peekDeliversMirror : Obligations.PeekDeliversMirror := fun _ _ hr => exec_of_ready hr hr.2

/-- What an instruction that completed left: its effect, unmarked, under a valid configuration. -/
theorem exec_eq_next {i : Instr} {s t : State} :
    exec i s = .next t ↔ s.config.valid = true ∧ t = effectOf i s ∧ (effectOf i s).block.refused = none := by
  rw [exec_eq_perform, perform_eq_next]

/-- Settles O26: each field is read from the reset block; the mark is that of the state before. -/
theorem resetSetsEveryField : Obligations.ResetSetsEveryField := by
  intro s hr
  exact ⟨effectOf .reset s, exec_of_ready hr hr.2, Block.reset_mirrorAt s.config, Block.reset_volpanAt s.config,
    Block.reset_waveAt s.config, Block.reset_timerAt s.config, fun hfits => dividerStart_toNat hfits, rfl, rfl,
    s.sameHost_onBlock _⟩

/-- Settles O27: the reset block depends on the configuration and the mark only, and RESET keeps both. -/
theorem resetTwiceIsResetOnce : Obligations.ResetTwiceIsResetOnce := by
  intro s t h
  obtain ⟨hv, rfl, hu⟩ := exec_eq_next.mp h
  exact exec_eq_next.mpr ⟨hv, rfl, hu⟩

/-- Settles O28: the initial block is the reset block with no mark. -/
theorem initialStateIsResetState : Obligations.InitialStateIsResetState := fun cfg hv =>
  ⟨exec_eq_next.mpr ⟨hv, rfl, rfl⟩, Block.reset_refused cfg, rfl, rfl⟩

/-! ### TICK: the state it leaves (R500) -/

/-- Settles O29: the tick's steps touch no register but the timers', and the record is that of the block they leave. -/
theorem tickDeliversOneRecord : Obligations.TickDeliversOneRecord := by
  intro s hr
  obtain ⟨hconfig, hpending, hpos⟩ := effectOf_keeps .tick s
  exact ⟨effectOf .tick s, exec_tick_of_ready hr, rfl, s.block.tick_mirrorAt s.config,
    ⟨s.block.tick_volpanAt s.config, s.block.tick_waveAt s.config⟩, (s.block.tick_refused s.config).trans hr.2,
    hconfig, hpending, hpos⟩

theorem effectOf_tick_timerAt (s : State) (t : TimerIx) :
    (effectOf .tick s).block.timerAt t = (s.block.timerAt t).step := s.block.tick_timerAt s.config t

/-- A step of a timer writes its countdown and its output only. -/
theorem Timer.step_eq (tm : Timer) : tm.step = { tm with count := tm.step.count, out := tm.step.out } := by
  obtain ⟨hctrl, hreload, hlatch, hhi, hrun⟩ := tm.step_keeps
  calc tm.step = ⟨tm.step.ctrl, tm.step.reload, tm.step.count, tm.step.latch, tm.step.hiNext, tm.step.running,
        tm.step.out⟩ := rfl
    _ = _ := by rw [hctrl, hreload, hlatch, hhi, hrun]

/-- A phase length fits the 16-bit countdown. -/
theorem phaseLen_toNat (r : BitVec 16) (o : Bool) : (BitVec.ofNat 16 (phaseLen r o)).toNat = phaseLen r o := by
  have := phaseLen_le r o
  rw [BitVec.toNat_ofNat]
  exact Nat.mod_eq_of_lt (by omega)

/-- At terminal count the output flips and the countdown holds the new phase (R502). -/
theorem Timer.step_at_one {tm : Timer} (hrun : tm.running = true) (hc : tm.count.toNat = 1) :
    tm.step.out = !tm.out ∧ tm.step.count.toNat = phaseLen tm.reload (!tm.out) := by
  rw [Timer.step_terminal hrun (BitVec.eq_of_toNat_eq hc)]
  exact ⟨rfl, phaseLen_toNat _ _⟩

/-- Above 1 the countdown goes down and the output stays (R502). -/
theorem Timer.step_above_one {tm : Timer} (hrun : tm.running = true) (hc : 1 < tm.count.toNat) :
    tm.step.out = tm.out ∧ tm.step.count.toNat = tm.count.toNat - 1 := by
  rw [Timer.step_counting hrun fun h => Nat.ne_of_gt hc (congrArg BitVec.toNat h)]
  exact ⟨rfl, by bv_omega⟩

/-- Settles O31: the two cases of the countdown. -/
theorem runningTimerCountsAndToggles : Obligations.RunningTimerCountsAndToggles := by
  intro s t hr hrun hpos
  refine ⟨effectOf .tick s, exec_tick_of_ready hr, ?_⟩
  rw [effectOf_tick_timerAt]
  exact ⟨Timer.step_eq _, Timer.step_at_one hrun, fun h => Timer.step_above_one hrun (by omega)⟩

/-- Settles O32: the two phases of a counting length, by their definition. -/
theorem phaseLengths : Obligations.PhaseLengths := by
  intro r N hN
  have hcount : countingLength r = N := by
    obtain ⟨rfl, rfl⟩ | ⟨hr, rfl⟩ := hN
    · rfl
    · exact if_neg hr
  have hhigh : phaseLen r true = (N + 1) / 2 := by rw [← hcount]; rfl
  have hlow : phaseLen r false = max 1 (N / 2) := by rw [← hcount]; rfl
  refine ⟨hhigh, hlow, fun h => ?_, fun h => ?_, fun o => ⟨phaseLen_pos r o, phaseLen_le r o⟩⟩
  · rw [hhigh, hlow]
    omega
  · rw [hhigh, hlow, h]
    exact ⟨rfl, rfl⟩

/-- Changes of two different timers may be taken in either order (R505). -/
theorem Block.modifyTimer_comm (b : Block) {t u : TimerIx} (h : t ≠ u) (f g : Timer → Timer) :
    (b.modifyTimer t f).modifyTimer u g = (b.modifyTimer u g).modifyTimer t f := by
  have htimer : ((b.modifyTimer t f).modifyTimer u g).timer = ((b.modifyTimer u g).modifyTimer t f).timer := by
    refine Block.timer_ext fun x => ?_
    by_cases ht : x = t
    · subst x
      simp only [Block.modifyTimer_timerAt, if_neg h, if_true]
    · simp only [Block.modifyTimer_timerAt, if_neg ht]
  calc (b.modifyTimer t f).modifyTimer u g
    _ = { b with timer := ((b.modifyTimer t f).modifyTimer u g).timer } := rfl
    _ = { b with timer := ((b.modifyTimer u g).modifyTimer t f).timer } := by rw [htimer]
    _ = (b.modifyTimer u g).modifyTimer t f := rfl

/-- Settles O33: steps of different timers commute, and the tick takes one step of each timer. -/
theorem timersAreIndependent : Obligations.TimersAreIndependent := by
  refine ⟨fun b t u => ?_, fun s s' x x' t hx hx' heq => ?_⟩
  · by_cases h : t = u
    · rw [h]
    · exact b.modifyTimer_comm h _ _
  · obtain ⟨-, rfl, -⟩ := exec_eq_next.mp hx
    obtain ⟨-, rfl, -⟩ := exec_eq_next.mp hx'
    rw [effectOf_tick_timerAt, effectOf_tick_timerAt, heq]

/-! ### The noise divider (R510, R511) -/

/-- The divider at 1 expires in a tick. -/
theorem Block.tick_noise_expiry {cfg : Config} {b : Block} (hfits : FitsDivider cfg) (h : b.noiseTimer.toNat = 1) :
    (b.tick cfg).noise = cfg.noiseStep b.noise ∧ (b.tick cfg).noiseTimer.toNat = cfg.noiseClock := by
  rw [Block.tick, Block.noiseDividerStep_expiry (b := b.timersStep) (BitVec.eq_of_toNat_eq h)]
  exact ⟨rfl, dividerStart_toNat hfits⟩

/-- The divider above 1 counts down in a tick. -/
theorem Block.tick_noise_counting {cfg : Config} {b : Block} (h : 1 < b.noiseTimer.toNat) :
    (b.tick cfg).noise = b.noise ∧ (b.tick cfg).noiseTimer.toNat = b.noiseTimer.toNat - 1 := by
  have hne : b.timersStep.noiseTimer ≠ 1 := fun e => Nat.ne_of_gt h (congrArg BitVec.toNat e)
  rw [Block.tick, Block.noiseDividerStep_counting hne]
  exact ⟨rfl, by simp only [Block.timersStep_noiseTimer]; bv_omega⟩

/-- Settles O34: the two cases of the divider. -/
theorem noiseDividerStepsOnTick : Obligations.NoiseDividerStepsOnTick := by
  intro s hr hfits hpos
  exact ⟨effectOf .tick s, exec_tick_of_ready hr, fun h => Block.tick_noise_expiry hfits (by omega),
    fun h => Block.tick_noise_counting (by omega)⟩

theorem effectOf_noiseSame {i : Instr} (ht : i ≠ .tick) (hr : i ≠ .reset) (s : State) :
    s.block.NoiseSame (effectOf i s).block := by
  cases i with
  | tick => exact absurd rfl ht
  | reset => exact absurd rfl hr
  | wrFreq0 v => exact ⟨Block.dataWrite_noiseTimer .., Block.dataWrite_noise ..⟩
  | wrFreq1 v => exact ⟨Block.dataWrite_noiseTimer .., Block.dataWrite_noise ..⟩
  | wrFreq2 v => exact ⟨Block.dataWrite_noiseTimer .., Block.dataWrite_noise ..⟩
  | wrTctl v => exact ⟨Block.ctrlWrite_noiseTimer .., Block.ctrlWrite_noise ..⟩
  | _ => exact ⟨rfl, rfl⟩

/-- Settles O36: no effect of another instruction touches the two noise fields. -/
theorem noiseChangesOnlyByTickOrReset : Obligations.NoiseChangesOnlyByTickOrReset := by
  intro i s t h ht hr
  obtain ⟨-, rfl, -⟩ := exec_eq_next.mp h
  exact effectOf_noiseSame ht hr s

/-- Settles O37: TICK and PEEK are the two effects with an emission. -/
theorem deliveriesOnlyGrow : Obligations.DeliveriesOnlyGrow := by
  intro i s t h
  obtain ⟨-, rfl, -⟩ := exec_eq_next.mp h
  cases i with
  | tick => exact ⟨_, rfl⟩
  | peek a => exact ⟨_, rfl⟩
  | _ => rfl

end Sys2Proof.Machine
end

section
/-! SUPPORT. The invariant of the block (spec/10_state.md R120): its three parts, that the initial block has them, and
that every effect keeps each of them. -/

namespace Sys2Proof.Machine

open Sys2Proof

/-- R120.1: volume/pan and waveform registers hold what the mirror shows at their addresses. -/
def Block.ChannelsMirrored (b : Block) : Prop :=
  ∀ c : Channel, b.mirrorAt (volPanAddr c) = b.volpanAt c ∧ b.mirrorAt (waveAddr c) = b.waveAt c

/-- R120.2 and R120.3 for one timer: while it runs, its countdown is in range and it is programmed. -/
def Timer.Sound (tm : Timer) : Prop :=
  tm.running = true → (1 ≤ tm.count.toNat ∧ tm.count.toNat ≤ 32769) ∧ tm.Programmed

/-- R120.4: the divider is in range. -/
def Block.DividerInRange (cfg : Config) (b : Block) : Prop :=
  1 ≤ b.noiseTimer.toNat ∧ b.noiseTimer.toNat ≤ cfg.noiseClock

/-- The invariant of the model is the conjunction of the three parts. -/
theorem Block.inv_iff (cfg : Config) (b : Block) :
    b.Inv cfg ↔ b.ChannelsMirrored ∧ (∀ t, (b.timerAt t).Sound) ∧ b.DividerInRange cfg := by
  constructor
  · rintro ⟨hvolpan, hwave, hcount, hprog, hdivider⟩
    exact ⟨fun c => ⟨hvolpan c, hwave c⟩, fun t h => ⟨hcount t h, hprog t h⟩, hdivider⟩
  · rintro ⟨hchannels, htimers, hdivider⟩
    exact ⟨fun c => (hchannels c).1, fun c => (hchannels c).2, fun t h => (htimers t h).1,
      fun t h => (htimers t h).2, hdivider⟩

/-! ### The reset block -/

theorem Block.channelsMirrored_reset (cfg : Config) : (Block.reset cfg).ChannelsMirrored := by
  intro c
  simp

theorem Timer.sound_of_stopped {tm : Timer} (h : tm.running = false) : tm.Sound := by
  intro hrun
  rw [h] at hrun
  cases hrun

theorem Block.timers_sound_reset (cfg : Config) (t : TimerIx) : ((Block.reset cfg).timerAt t).Sound := by
  rw [Block.reset_timerAt]
  exact Timer.sound_of_stopped rfl

/-- A period that fits the divider starts it at its upper end. -/
theorem dividerInRange_of_start {cfg : Config} {b : Block} (hfits : FitsDivider cfg) (h : b.noiseTimer = cfg.dividerStart) :
    b.DividerInRange cfg := by
  rw [Block.DividerInRange, h, dividerStart_toNat hfits]
  exact ⟨noiseClock_pos cfg, le_rfl⟩

theorem Block.inv_reset {cfg : Config} (hfits : FitsDivider cfg) : (Block.reset cfg).Inv cfg :=
  (Block.inv_iff _ _).mpr
    ⟨Block.channelsMirrored_reset cfg, Block.timers_sound_reset cfg, dividerInRange_of_start hfits rfl⟩

theorem fitsDivider_default : FitsDivider Config.default := by decide

/-- Settles O55: the initial block is the reset block, and the default period fits the divider. -/
theorem initialBlockWellFormed : Obligations.InitialBlockWellFormed :=
  ⟨fun _ => Block.inv_reset, Block.inv_reset fitsDivider_default, by decide⟩

/-! ### The channel registers -/

theorem volPanAddr_toNat (c : Channel) : (volPanAddr c).toNat = 0x10 + c.val := by
  revert c
  decide

theorem waveAddr_toNat (c : Channel) : (waveAddr c).toNat = 0x14 + c.val := by
  revert c
  decide

/-- An address outside 0x10–0x17 is no channel register's. -/
theorem ne_channelAddr {a : Addr} (h : a.toNat < 0x10 ∨ 0x18 ≤ a.toNat) (c : Channel) :
    volPanAddr c ≠ a ∧ waveAddr c ≠ a := by
  have hv := volPanAddr_toNat c
  have hw := waveAddr_toNat c
  constructor <;> rintro rfl <;> omega

/-- A write to another address keeps the channel registers mirrored. -/
theorem Block.ChannelsMirrored.of_write_elsewhere {b b' : Block} {a : Addr} {v : Byte} (h : b.ChannelsMirrored)
    (ha : a.toNat < 0x10 ∨ 0x18 ≤ a.toNat) (hmirror : b'.mirror = (b.setMirror a v).mirror)
    (hsame : b.ChannelsSame b') : b'.ChannelsMirrored := by
  intro c
  obtain ⟨-, hbut⟩ := Block.mirrorAt_of_write hmirror
  obtain ⟨hv, hw⟩ := ne_channelAddr ha c
  rw [hbut _ hv, hbut _ hw, hsame.volpan, hsame.wave]
  exact h c

theorem volPanAddr_injective {c d : Channel} (h : c ≠ d) : volPanAddr c ≠ volPanAddr d := by
  revert c d
  decide

theorem waveAddr_injective {c d : Channel} (h : c ≠ d) : waveAddr c ≠ waveAddr d := by
  revert c d
  decide

theorem volPanAddr_ne_waveAddr (c d : Channel) : volPanAddr c ≠ waveAddr d := by
  revert c d
  decide

theorem Block.ChannelsMirrored.volpan_write {b : Block} (h : b.ChannelsMirrored) (c : Channel) (v : Byte) :
    ((b.setMirror (volPanAddr c) v).setVolpan c v).ChannelsMirrored := by
  intro d
  obtain ⟨hvolpan, hwave⟩ := h d
  constructor
  · by_cases hd : d = c
    · subst d
      simp
    · rw [Block.setVolpan_mirrorAt, Block.setMirror_mirrorAt_ne _ _ _ _ (volPanAddr_injective hd),
        Block.setVolpan_volpanAt_ne _ _ _ _ hd, Block.setMirror_volpanAt, hvolpan]
  · rw [Block.setVolpan_mirrorAt, Block.setMirror_mirrorAt_ne _ _ _ _ (volPanAddr_ne_waveAddr c d).symm,
      Block.setVolpan_waveAt, Block.setMirror_waveAt, hwave]

theorem Block.ChannelsMirrored.wave_write {b : Block} (h : b.ChannelsMirrored) (c : Channel) (v : Byte) :
    ((b.setMirror (waveAddr c) v).setWave c v).ChannelsMirrored := by
  intro d
  obtain ⟨hvolpan, hwave⟩ := h d
  constructor
  · rw [Block.setWave_mirrorAt, Block.setMirror_mirrorAt_ne _ _ _ _ (volPanAddr_ne_waveAddr d c),
      Block.setWave_volpanAt, Block.setMirror_volpanAt, hvolpan]
  · by_cases hd : d = c
    · subst d
      simp
    · rw [Block.setWave_mirrorAt, Block.setMirror_mirrorAt_ne _ _ _ _ (waveAddr_injective hd),
        Block.setWave_waveAt_ne _ _ _ _ hd, Block.setMirror_waveAt, hwave]

theorem Block.ctrlWrite_channelsSame (b : Block) (a : Addr) (v : Byte) :
    b.ChannelsSame ((b.setMirror a v).ctrlWrite v) :=
  ⟨fun c => by simp [Block.volpanAt], fun c => by simp [Block.waveAt]⟩

theorem Block.dataWrite_channelsSame (b : Block) (a : Addr) (t : TimerIx) (v : Byte) :
    b.ChannelsSame ((b.setMirror a v).dataWrite t v) :=
  ⟨fun c => by simp [Block.volpanAt], fun c => by simp [Block.waveAt]⟩

/-- Every effect of a well-formed instruction keeps the channel registers mirrored: their own writes set both, RESET
clears both, and no other operation touches either. -/
theorem effectOf_channelsMirrored {i : Instr} {s : State} (hwf : i.WellFormed) (h : s.block.ChannelsMirrored) :
    (effectOf i s).block.ChannelsMirrored := by
  cases i with
  | wrFreq0 v =>
    exact h.of_write_elsewhere (.inl (by simp [encode])) (effectOf_write_mirror rfl s) (Block.dataWrite_channelsSame ..)
  | wrFreq1 v =>
    exact h.of_write_elsewhere (.inl (by simp [encode])) (effectOf_write_mirror rfl s) (Block.dataWrite_channelsSame ..)
  | wrFreq2 v =>
    exact h.of_write_elsewhere (.inl (by simp [encode])) (effectOf_write_mirror rfl s) (Block.dataWrite_channelsSame ..)
  | wrTctl v =>
    exact h.of_write_elsewhere (.inl (by simp [encode])) (effectOf_write_mirror rfl s) (Block.ctrlWrite_channelsSame ..)
  | wrUnmapped0407 a v =>
    have ha := of_decide_eq_true hwf
    exact h.of_write_elsewhere (a := a) (v := v) (.inl (by omega)) rfl ⟨fun _ => rfl, fun _ => rfl⟩
  | wrUnmapped080F a v =>
    have ha := of_decide_eq_true hwf
    exact h.of_write_elsewhere (a := a) (v := v) (.inl (by omega)) rfl ⟨fun _ => rfl, fun _ => rfl⟩
  | wrUnmapped181F a v =>
    have ha := of_decide_eq_true hwf
    exact h.of_write_elsewhere (a := a) (v := v) (.inr (by omega)) rfl ⟨fun _ => rfl, fun _ => rfl⟩
  | wrVolPan c v => exact h.volpan_write c v
  | wrWave c v => exact h.wave_write c v
  | tick =>
    intro c
    simpa using h c
  | reset => exact Block.channelsMirrored_reset s.config
  | peek a => exact h

/-! ### The timers -/

theorem Timer.sound_control (tm : Timer) (v : Byte) : (tm.control v).Sound := Timer.sound_of_stopped rfl

/-- A data byte of a programmed timer keeps it sound: the high byte arms it with a phase and the load cycle (R412). -/
theorem Timer.Sound.dataByte {tm : Timer} (h : tm.Sound) (hp : tm.Programmed) (v : Byte) : (tm.dataByte v).Sound := by
  cases hnext : tm.hiNext with
  | false =>
    rw [Timer.dataByte_low hnext]
    exact h
  | true =>
    rw [Timer.dataByte_high hnext]
    intro _
    have hpos := phaseLen_pos (assembleReload v tm.latch) tm.out
    have hle := phaseLen_le (assembleReload v tm.latch) tm.out
    rw [Timer.highByte_count]
    exact ⟨by omega, hp⟩

/-- A timer step keeps a timer sound: it counts down above 1, and at 1 it starts a phase (R502). -/
theorem Timer.Sound.step {tm : Timer} (h : tm.Sound) : tm.step.Sound := by
  cases hrun : tm.running with
  | false =>
    rw [Timer.step_of_stopped hrun]
    exact Timer.sound_of_stopped hrun
  | true =>
    obtain ⟨⟨hlow, hhigh⟩, hp⟩ := h hrun
    obtain ⟨hctrl, -⟩ := tm.step_keeps
    refine fun _ => ⟨?_, by rw [Timer.Programmed, hctrl]; exact hp⟩
    by_cases hc : tm.count.toNat = 1
    · rw [(Timer.step_at_one hrun hc).2]
      have hle := phaseLen_le tm.reload (!tm.out)
      exact ⟨phaseLen_pos _ _, by omega⟩
    · rw [(Timer.step_above_one hrun (by omega)).2]
      omega

theorem Block.timers_sound_modifyTimer {b : Block} {t : TimerIx} {f : Timer → Timer} (h : ∀ u, (b.timerAt u).Sound)
    (ht : (f (b.timerAt t)).Sound) (u : TimerIx) : ((b.modifyTimer t f).timerAt u).Sound := by
  by_cases hu : u = t
  · subst u
    rw [Block.modifyTimer_timerAt_same]
    exact ht
  · rw [Block.modifyTimer_timerAt_ne _ _ _ _ hu]
    exact h u

theorem Block.timers_sound_ctrlWrite {b : Block} (h : ∀ u, (b.timerAt u).Sound) (v : Byte) (u : TimerIx) :
    ((b.ctrlWrite v).timerAt u).Sound := by
  obtain ⟨t, -, e⟩ | ⟨-, r, e⟩ := b.ctrlWrite_cases v <;> rw [e]
  · exact Block.timers_sound_modifyTimer h (Timer.sound_control _ v) u
  · exact h u

theorem Block.timers_sound_dataWrite {b : Block} (h : ∀ u, (b.timerAt u).Sound) (t : TimerIx) (v : Byte) (u : TimerIx) :
    ((b.dataWrite t v).timerAt u).Sound := by
  obtain ⟨hp, e⟩ | ⟨-, e⟩ := b.dataWrite_cases t v <;> rw [e]
  · exact Block.timers_sound_modifyTimer h ((h t).dataByte hp v) u
  · exact h u

/-- Every effect keeps every timer sound. -/
theorem effectOf_timers_sound (i : Instr) {s : State} (h : ∀ t, (s.block.timerAt t).Sound) (t : TimerIx) :
    ((effectOf i s).block.timerAt t).Sound := by
  cases i with
  | wrFreq0 v => exact Block.timers_sound_dataWrite (b := s.block.setMirror _ v) h 0 v t
  | wrFreq1 v => exact Block.timers_sound_dataWrite (b := s.block.setMirror _ v) h 1 v t
  | wrFreq2 v => exact Block.timers_sound_dataWrite (b := s.block.setMirror _ v) h 2 v t
  | wrTctl v => exact Block.timers_sound_ctrlWrite (b := s.block.setMirror _ v) h v t
  | tick =>
    rw [effectOf_tick_timerAt]
    exact (h t).step
  | reset => exact Block.timers_sound_reset s.config t
  | _ => exact h t

/-! ### The noise divider -/

theorem Block.DividerInRange.tick {cfg : Config} {b : Block} (hfits : FitsDivider cfg) (h : b.DividerInRange cfg) :
    (b.tick cfg).DividerInRange cfg := by
  obtain ⟨hlow, hhigh⟩ := h
  unfold Block.DividerInRange
  by_cases h1 : b.noiseTimer.toNat = 1
  · rw [(Block.tick_noise_expiry hfits h1).2]
    exact ⟨noiseClock_pos cfg, le_rfl⟩
  · rw [(Block.tick_noise_counting (by omega)).2]
    omega

/-- Every effect keeps the divider in range: TICK counts it down or starts it, RESET starts it, no other touches it. -/
theorem effectOf_dividerInRange (i : Instr) {s : State} (hfits : FitsDivider s.config)
    (h : s.block.DividerInRange s.config) : (effectOf i s).block.DividerInRange s.config := by
  by_cases ht : i = .tick
  · subst i
    exact h.tick hfits
  by_cases hr : i = .reset
  · subst i
    exact dividerInRange_of_start hfits rfl
  · rw [Block.DividerInRange, (effectOf_noiseSame ht hr s).noiseTimer]
    exact h

/-- Settles O54: a step that completes ran the effect of a decoded, so well-formed, instruction, which keeps each part of
the invariant, or was idle. -/
theorem stepKeepsBlockWellFormed : Obligations.StepKeepsBlockWellFormed := by
  intro s t hfits hinv hstep
  obtain ⟨-, -, ⟨w, i, -, hd, rfl⟩ | ⟨-, rfl⟩⟩ := step_next_cases hstep
  · obtain ⟨hchannels, htimers, hdivider⟩ := (Block.inv_iff _ _).mp hinv
    obtain ⟨hwf, -⟩ := encodeOfDecode w i hd
    rw [effectOf_config]
    exact (Block.inv_iff _ _).mpr ⟨effectOf_channelsMirrored (s := s.advance) hwf hchannels,
      effectOf_timers_sound i (s := s.advance) htimers, effectOf_dividerInRange i (s := s.advance) hfits hdivider⟩
  · exact hinv

end Sys2Proof.Machine
end

section
/-! SUPPORT. Proofs about synthesis and readout (spec/43_synthesis_readout.md), the silence after reset
(spec/70_reset_and_hazards.md section 1), and the two computed instances: the divider's period and the reference noise. -/

namespace Sys2Proof.Machine

open Sys2Proof

/-! ### The output record -/

section record

variable (cfg : Config) (b : Block) (c : Channel)

@[simp] theorem Block.outputRecord_chanL : (b.outputRecord cfg).chanL[c.val] = b.chanL cfg c := by
  match c with
  | 0 => rfl
  | 1 => rfl
  | 2 => rfl
  | 3 => rfl

@[simp] theorem Block.outputRecord_chanR : (b.outputRecord cfg).chanR[c.val] = b.chanR cfg c := by
  match c with
  | 0 => rfl
  | 1 => rfl
  | 2 => rfl
  | 3 => rfl

@[simp] theorem Block.outputRecord_osc : (b.outputRecord cfg).osc[c.val] = b.osc cfg c := by
  match c with
  | 0 => rfl
  | 1 => rfl
  | 2 => rfl
  | 3 => rfl

end record

theorem leftLevel_eq (v : Byte) : leftLevel v = v.toNat / 16 := by
  have := v.isLt
  simp only [leftLevel, BitVec.extractLsb'_toNat, Nat.shiftRight_eq_div_pow]
  omega

theorem rightLevel_eq (v : Byte) : rightLevel v = v.toNat % 16 := by
  simp [rightLevel, BitVec.extractLsb'_toNat]

/-- The carrier bit of channel 3 is the noise output bit (R550). -/
theorem Block.carrier_of_noise (cfg : Config) (b : Block) {c : Channel} (h : c.val = 3) :
    b.carrier cfg c = cfg.noiseOutBit b.noise := dif_neg (by omega)

/-- Settles O38: the record holds the contributions, and a level is a nibble of its byte. -/
theorem channelContributions : Obligations.ChannelContributions := by
  intro cfg b c
  obtain ⟨hLlow, hLhigh⟩ := abs_le.mp (b.abs_chanL_le cfg c)
  obtain ⟨hRlow, hRhigh⟩ := abs_le.mp (b.abs_chanR_le cfg c)
  rw [Block.outputRecord_chanL, Block.outputRecord_chanR, ← leftLevel_eq, ← rightLevel_eq]
  exact ⟨fun t ht => b.carrier_of_timer cfg ht.symm, b.carrier_of_noise cfg, rfl, rfl, hLlow, hLhigh, hRlow, hRhigh⟩

/-- A mix in −60..60 scaled by 128 fits a signed 16-bit sample, so the narrowing does not wrap (R560). -/
theorem audioSample_toInt {mix : Int} (h : -60 ≤ mix ∧ mix ≤ 60) : (audioSample mix).toInt = 128 * mix := by
  obtain ⟨hlow, hhigh⟩ := h
  exact BitVec.toInt_ofInt_eq_self (by decide) (by norm_num; omega) (by norm_num; omega)

/-- Settles O40: the two mixes lie in −60..60. -/
theorem audioSamplesAreExactSums : Obligations.AudioSamplesAreExactSums := by
  intro cfg b
  have hL := b.mixL_bounds cfg
  have hR := b.mixR_bounds cfg
  have houtL : (b.outputRecord cfg).outL.toInt = 128 * b.mixL cfg := audioSample_toInt hL
  have houtR : (b.outputRecord cfg).outR.toInt = 128 * b.mixR cfg := audioSample_toInt hR
  refine ⟨houtL, houtR, ?_⟩
  rw [houtL, houtR]
  omega

/-- Settles O41: the oscilloscope sample is defined as the scaled sum (R561), of two contributions in −15..15. -/
theorem oscilloscopeScale : Obligations.OscilloscopeScale := by
  intro cfg b c
  obtain ⟨hLlow, hLhigh⟩ := abs_le.mp (b.abs_chanL_le cfg c)
  obtain ⟨hRlow, hRhigh⟩ := abs_le.mp (b.abs_chanR_le cfg c)
  rw [Block.outputRecord_osc, Block.outputRecord_chanL, Block.outputRecord_chanR, Block.osc]
  exact ⟨rfl, by omega⟩

/-- A level of 0 on both sides silences the channel, whatever its signal is (R554). -/
theorem Block.contributions_of_zero {b : Block} {c : Channel} (h : b.volpanAt c = 0x00) (cfg : Config) :
    b.chanL cfg c = 0 ∧ b.chanR cfg c = 0 := by
  rw [Block.chanL, Block.chanR, h, leftLevel_eq, rightLevel_eq]
  exact ⟨Int.mul_zero _, Int.mul_zero _⟩

/-- The full level on both sides is 15 times the signal (R554). -/
theorem Block.contributions_of_full {b : Block} {c : Channel} (h : b.volpanAt c = 0xFF) (cfg : Config) :
    b.chanL cfg c = 15 * b.signal cfg c ∧ b.chanR cfg c = 15 * b.signal cfg c := by
  rw [Block.chanL, Block.chanR, h, leftLevel_eq, rightLevel_eq]
  exact ⟨Int.mul_comm _ _, Int.mul_comm _ _⟩

/-- Settles O42: the record holds the contributions. -/
theorem silenceAndFullLevel : Obligations.SilenceAndFullLevel := by
  intro cfg b c
  rw [Block.outputRecord_chanL, Block.outputRecord_chanR]
  exact ⟨fun h => Block.contributions_of_zero h cfg, fun h => Block.contributions_of_full h cfg⟩

/-! ### Silence until a level is written (spec/70_reset_and_hazards.md R802) -/

/-- Every volume/pan byte is 0. -/
def Block.Silenced (b : Block) : Prop := ∀ c, b.volpanAt c = 0

/-- Every sample of the record is 0. -/
def OutputRecord.Silent (r : OutputRecord) : Prop := r.outL = 0 ∧ r.outR = 0 ∧ ∀ c : Channel, r.osc[c.val] = 0

theorem Block.Silenced.outputRecord {b : Block} (h : b.Silenced) (cfg : Config) : (b.outputRecord cfg).Silent := by
  have hL (c : Channel) : b.chanL cfg c = 0 := (Block.contributions_of_zero (h c) cfg).1
  have hR (c : Channel) : b.chanR cfg c = 0 := (Block.contributions_of_zero (h c) cfg).2
  have hmixL : b.mixL cfg = 0 := by rw [Block.mixL, hL, hL, hL, hL]; rfl
  have hmixR : b.mixR cfg = 0 := by rw [Block.mixR, hR, hR, hR, hR]; rfl
  refine ⟨congrArg audioSample hmixL, congrArg audioSample hmixR, fun c => ?_⟩
  rw [Block.outputRecord_osc, Block.osc, hL, hR]
  rfl

theorem Block.Silenced.tick {b : Block} (h : b.Silenced) (cfg : Config) : (b.tick cfg).Silenced := fun c =>
  (b.tick_volpanAt cfg c).trans (h c)

/-- Only a volume/pan write of another byte than 0 ends the silence. -/
theorem effectOf_silenced {s : State} (h : s.block.Silenced) {i : Instr} (hi : ∀ c v, i = .wrVolPan c v → v = 0) :
    (effectOf i s).block.Silenced := by
  cases i with
  | wrFreq0 v => exact fun c => ((s.block.dataWrite_channelsSame _ 0 v).volpan c).trans (h c)
  | wrFreq1 v => exact fun c => ((s.block.dataWrite_channelsSame _ 1 v).volpan c).trans (h c)
  | wrFreq2 v => exact fun c => ((s.block.dataWrite_channelsSame _ 2 v).volpan c).trans (h c)
  | wrTctl v => exact fun c => ((s.block.ctrlWrite_channelsSame _ v).volpan c).trans (h c)
  | wrVolPan c v =>
    obtain rfl := hi c v rfl
    intro d
    by_cases hd : d = c
    · subst d
      exact Block.setVolpan_volpanAt_same _ 0 c
    · exact (Block.setVolpan_volpanAt_ne _ 0 c d hd).trans (h d)
  | tick => exact h.tick s.config
  | reset => exact Block.reset_volpanAt s.config
  | _ => exact h

/-- What a silenced block delivers in one operation: at most one record, and that a silent one. -/
theorem effectOf_received_silent {s : State} (h : s.block.Silenced) (i : Instr) :
    ∃ es, (effectOf i s).received = s.received ++ es ∧ ∀ r, Emission.record r ∈ es → r.Silent := by
  cases i with
  | tick =>
    refine ⟨[.record ((s.block.tick s.config).outputRecord s.config)], rfl, fun r hr => ?_⟩
    obtain rfl : r = _ := by simpa using hr
    exact (h.tick s.config).outputRecord s.config
  | peek a => exact ⟨[.byte (s.block.mirrorAt a)], rfl, fun r hr => by simp at hr⟩
  | _ => exact ⟨[], (List.append_nil _).symm, fun r hr => nomatch hr⟩

/-- One step of a silenced block whose next operation raises no level: silenced after it, with silent records. -/
theorem step_silenced {s t : State} (h : s.block.Silenced)
    (hp : ∀ w c v, Request.word w ∈ s.pending → decode w = .ok (.wrVolPan c v) → v = 0) (hstep : step s = .next t) :
    t.block.Silenced ∧ (∃ es, t.received = s.received ++ es ∧ ∀ r, Emission.record r ∈ es → r.Silent) ∧
      ∀ x ∈ t.pending, x ∈ s.pending := by
  obtain ⟨-, -, ⟨w, i, hf, hd, rfl⟩ | ⟨-, rfl⟩⟩ := step_next_cases hstep
  · have hlevel : ∀ c v, i = .wrVolPan c v → v = 0 := fun c v hi =>
      hp w c v (List.mem_of_mem_head? hf) (hi ▸ hd)
    refine ⟨effectOf_silenced (s := s.advance) h hlevel, effectOf_received_silent (s := s.advance) h i, ?_⟩
    rw [effectOf_pending]
    exact fun x hx => List.mem_of_mem_tail hx
  · exact ⟨h, ⟨[], (List.append_nil _).symm, fun r hr => nomatch hr⟩, fun x hx => hx⟩

theorem runSteps_silenced {n : Nat} {s t : State} (h : s.block.Silenced)
    (hp : ∀ w c v, Request.word w ∈ s.pending → decode w = .ok (.wrVolPan c v) → v = 0)
    (hrun : runSteps n s = .next t) :
    t.block.Silenced ∧ ∃ es, t.received = s.received ++ es ∧ ∀ r, Emission.record r ∈ es → r.Silent := by
  induction n generalizing s with
  | zero =>
    cases hrun
    exact ⟨h, [], (List.append_nil _).symm, fun r hr => nomatch hr⟩
  | succ n ih =>
    obtain ⟨u, hstep, hrest⟩ := runSteps_succ_eq_next.mp hrun
    obtain ⟨hu, ⟨es, hes, hsilent⟩, hmem⟩ := step_silenced h hp hstep
    obtain ⟨ht, fs, hfs, hsilent'⟩ := ih hu (fun w c v hw => hp w c v (hmem _ hw)) hrest
    refine ⟨ht, es ++ fs, by rw [hfs, hes, List.append_assoc], fun r hr => ?_⟩
    exact (List.mem_append.mp hr).elim (hsilent r) (hsilent' r)

/-- Settles O43: the tick of a silenced block delivers a silent record, and silence is an invariant of the run. -/
theorem silentUntilALevelIsWritten : Obligations.SilentUntilALevelIsWritten := by
  refine ⟨fun s t hs h => ?_, fun n s t => runSteps_silenced⟩
  obtain ⟨-, rfl, -⟩ := exec_eq_next.mp h
  exact ⟨_, rfl, (Block.Silenced.tick hs s.config).outputRecord s.config⟩

/-! ### The divider's period and the reference noise register -/

/-- Settles O53: the base is chosen by `clockSel`, and the rest is evaluation. -/
theorem noiseClockDerivation : Obligations.NoiseClockDerivation :=
  ⟨fun _ _ _ => rfl, fun _ _ _ => rfl, fun _ _ _ => rfl, by decide, by decide⟩

/-- The reference register reaches 0 from 0 only: a state of 1 feeds its bit back (R521). -/
theorem lfsrStep_eq_zero_iff (x : BitVec 15) : lfsrStep x = 0 ↔ x = 0 := by
  constructor
  · intro h
    obtain ⟨hshift, -⟩ := BitVec.or_eq_zero_iff.mp h
    have hsmall : x.toNat / 2 = 0 := by simpa [Nat.shiftRight_eq_div_pow] using congrArg BitVec.toNat hshift
    have hx : x = 0 ∨ x = 1 := by bv_omega
    obtain hx | rfl := hx
    · exact hx
    · exact absurd h (by decide)
  · rintro rfl
    decide

/-- Settles O58: the first states are evaluated. -/
theorem referenceNoiseSequence : Obligations.ReferenceNoiseSequence := ⟨lfsrStep_eq_zero_iff, by decide⟩

end Sys2Proof.Machine
end

section
/-! SUPPORT. Proofs about runs of the host's named operations: `TICK n` and the render (spec/43_synthesis_readout.md
section 4), the noise advances of many ticks, and `SETFREQ` with the square wave it starts. -/

namespace Sys2Proof.Machine

open Sys2Proof

/-! ### Many ticks of the block -/

theorem Block.ticks_add (cfg : Config) (m n : Nat) (b : Block) :
    b.ticks cfg (m + n) = (b.ticks cfg m).ticks cfg n := by
  induction m generalizing b with
  | zero => rw [Nat.zero_add, Block.ticks]
  | succ m ih => rw [Nat.succ_add, Block.ticks, ih, Block.ticks]

theorem Block.tickRecords_add (cfg : Config) (m n : Nat) (b : Block) :
    b.tickRecords cfg (m + n) = b.tickRecords cfg m ++ (b.ticks cfg m).tickRecords cfg n := by
  induction m generalizing b with
  | zero => rw [Nat.zero_add, Block.ticks, Block.tickRecords, List.nil_append]
  | succ m ih => rw [Nat.succ_add, Block.tickRecords, ih, Block.tickRecords, Block.ticks, List.cons_append]

theorem Block.tickRecords_length (cfg : Config) (n : Nat) (b : Block) : (b.tickRecords cfg n).length = n := by
  induction n generalizing b with
  | zero => rfl
  | succ n ih => rw [Block.tickRecords, List.length_cons, ih]

theorem Block.ticks_timerAt (cfg : Config) (n : Nat) (b : Block) (t : TimerIx) :
    (b.ticks cfg n).timerAt t = Timer.step^[n] (b.timerAt t) := by
  induction n generalizing b with
  | zero => rfl
  | succ n ih => rw [Block.ticks, ih, Block.tick_timerAt, Function.iterate_succ_apply]

/-- The noise advances of `n` ticks (R512): every tick brings the divider one nearer to 0, and each time it gets there it
starts again at the period. -/
theorem Block.ticks_noise {cfg : Config} (hfits : FitsDivider cfg) (n : Nat) {b : Block} (h : b.DividerInRange cfg) :
    (b.ticks cfg n).noise =
      cfg.noiseStep^[(cfg.noiseClock - b.noiseTimer.toNat + n) / cfg.noiseClock] b.noise := by
  have hpos := noiseClock_pos cfg
  induction n generalizing b with
  | zero =>
    obtain ⟨hlow, -⟩ := h
    rw [Block.ticks, Nat.div_eq_of_lt (by omega)]
    rfl
  | succ n ih =>
    rw [Block.ticks, ih (h.tick hfits)]
    obtain ⟨hlow, hhigh⟩ := h
    by_cases h1 : b.noiseTimer.toNat = 1
    · obtain ⟨hnoise, hstart⟩ := Block.tick_noise_expiry hfits h1
      have hcount : cfg.noiseClock - b.noiseTimer.toNat + (n + 1) = n + cfg.noiseClock := by omega
      rw [hnoise, hstart, hcount, Nat.add_div_right n hpos, Nat.sub_self, Nat.zero_add, Function.iterate_succ_apply]
    · obtain ⟨hnoise, hcounted⟩ := Block.tick_noise_counting (cfg := cfg) (b := b) (by omega)
      have hcount : cfg.noiseClock - (b.noiseTimer.toNat - 1) + n = cfg.noiseClock - b.noiseTimer.toNat + (n + 1) := by
        omega
      rw [hnoise, hcounted, hcount]

/-! ### The run of `TICK n` (R604, R567) -/

/-- One tick of a ready state is a step of the render, taken off the list. -/
theorem step_tick {s : State} {rest : List Request} (hr : s.Ready) (hp : s.pending = .word (encode .tick) :: rest) :
    step s = .next (effectOf .tick s).advance :=
  step_of_word hr hp rfl ((Block.tick_refused s.config s.block).trans hr.2)

/-- The run of `n` pending ticks ends in the state of the render, with the ticks taken off the list. -/
theorem runSteps_ticks {n : Nat} {s : State} {rest : List Request} (hr : s.Ready)
    (hp : s.pending = expandTicks n ++ rest) :
    runSteps n s = .next { (render n s).1 with pending := rest, pos := s.pos + n } := by
  induction n generalizing s with
  | zero =>
    obtain rfl : s.pending = rest := hp
    have hreceived : s.received ++ ([] : List Emission) = s.received := List.append_nil _
    simp only [runSteps_zero, render, Block.ticks, Block.tickRecords, List.map_nil, hreceived, Nat.add_zero]
  | succ n ih =>
    have hstep := step_tick hr hp
    have htail : (effectOf .tick s).advance.pending = expandTicks n ++ rest := congrArg List.tail hp
    rw [runSteps_succ hstep, ih (step_keeps_ready hr hstep) htail]
    simp only [render, Block.tickRecords, List.map_cons]
    refine congrArg Host.Outcome.next (State.mk.injEq .. |>.mpr ⟨rfl, rfl, rfl, ?_, ?_⟩)
    · exact (Nat.add_assoc ..).trans (congrArg _ (Nat.add_comm 1 n))
    · exact List.append_assoc ..

/-- The records delivered, read back from the deliveries. -/
theorem recordsOf_map_record (rs : List OutputRecord) : recordsOf (rs.map .record) = rs := by
  induction rs with
  | nil => rfl
  | cons r rs ih => rw [List.map_cons, recordsOf, ih]

/-- A render of `n` records makes four oscilloscope calls for each, between the two of the block (R567). -/
theorem rendered_scope_length (rs : List OutputRecord) : (rendered rs).scope.length = 4 * rs.length + 2 := by
  have hcalls : (rs.flatMap OutputRecord.scopeCalls).length = 4 * rs.length := by
    induction rs with
    | nil => rfl
    | cons r rs ih =>
      rw [List.flatMap_cons, List.length_append, ih, List.length_cons]
      simp only [OutputRecord.scopeCalls, List.length_cons, List.length_nil]
      omega
  simp only [rendered, List.length_append, hcalls, List.length_cons, List.length_nil]
  omega

/-- Settles O50: the run of the ticks is the render. -/
theorem ticksAreRender : Obligations.TicksAreRender := by
  intro n s hr hp
  have hrun := runSteps_ticks (rest := []) hr (hp.trans (List.append_nil _).symm)
  refine ⟨_, hrun, rfl, rfl, rfl, rfl, ?_, ?_, ?_⟩
  · simp only [render, List.drop_left, recordsOf_map_record]
  · simp only [render, rendered, List.length_map, Block.tickRecords_length]
  · simp only [render, rendered_scope_length, Block.tickRecords_length]

/-- Settles O51: ticks and their records add up. -/
theorem renderCarriesState : Obligations.RenderCarriesState := by
  intro m n s
  simp only [render, Block.ticks_add, Block.tickRecords_add, List.map_append, List.append_assoc]

/-- Settles O35: the run of the ticks is the render, whose noise is that of the block's ticks. -/
theorem noiseAdvanceCount : Obligations.NoiseAdvanceCount := by
  intro n s hr hfits hlow hhigh hp
  exact ⟨_, runSteps_ticks (rest := []) hr (hp.trans (List.append_nil _).symm),
    Block.ticks_noise hfits n ⟨hlow, hhigh⟩⟩

/-! ### The run of `SETFREQ` (R601) -/

/-- A step on a WRITE word runs the instruction its address is dispatched to. -/
theorem step_wr {s : State} {a : Addr} {v : Byte} {rest : List Request} (hp : s.pending = wr a v :: rest) :
    step s = exec (decodeWrite a v) s.advance :=
  step_of_decode (State.fetch_of_pending hp) (decode_encodeWrite a v)

/-- What the write of `v` to `a` leaves of the block but the timer `t` it programs. -/
structure Block.TimerWritten (a : Addr) (v : Byte) (t : TimerIx) (b b' : Block) : Prop where
  timers : b.TimersSameBut t b'
  mirrored : b'.mirrorAt a = v
  mirror : b.MirrorSameBut a b'
  channels : b.ChannelsSame b'
  noise : b.NoiseSame b'

/-- A step on a write that changes timer `t` by `f` goes on to the rest of the list. -/
theorem step_writeTimer {s : State} (hr : s.Ready) {a : Addr} {v : Byte} {t : TimerIx} {f : Timer → Timer}
    {rest : List Request} (hp : s.pending = wr a v :: rest)
    (hexec : exec (decodeWrite a v) s.advance = .next (s.advance.writeTimer a v t f)) :
    ∃ s', step s = .next s' ∧ s'.Ready ∧ s'.pending = rest ∧ s'.received = s.received ∧
      s'.block.timerAt t = f (s.block.timerAt t) ∧ s.block.TimerWritten a v t s'.block := by
  have hstep := (step_wr hp).trans hexec
  obtain ⟨htimers, hmirrored, hmirror, hchannels, hnoise, -, -⟩ := State.writeTimer_frame (s := s.advance) hr.2 a v t f
  exact ⟨_, hstep, step_keeps_ready hr hstep, congrArg List.tail hp, rfl, State.writeTimer_timerAt ..,
    ⟨htimers, hmirrored, hmirror, hchannels, hnoise⟩⟩

/-- A timer loaded with `f` by `SETFREQ`: armed with a high phase and the load cycle. -/
def loadedTimer (t : TimerIx) (f : BitVec 16) : Timer where
  ctrl := controlByte t
  reload := f
  count := BitVec.ofNat 16 (phaseLen f true + 1)
  latch := f.extractLsb' 0 8
  hiNext := false
  running := true
  out := true

theorem assembleReload_bytes (f : BitVec 16) : assembleReload (f.extractLsb' 8 8) (f.extractLsb' 0 8) = f := by
  have := f.isLt
  apply BitVec.eq_of_toNat_eq
  simp only [assembleReload_toNat, BitVec.extractLsb'_toNat, Nat.shiftRight_eq_div_pow]
  omega

/-- The control byte and the two data bytes of `f` load any timer with `f`. -/
theorem Timer.load_eq (tm : Timer) (t : TimerIx) (f : BitVec 16) :
    ((tm.control (controlByte t)).dataByte (f.extractLsb' 0 8)).dataByte (f.extractLsb' 8 8) = loadedTimer t f := by
  rw [Timer.dataByte_low (tm := tm.control _) rfl, Timer.dataByte_high (tm := (tm.control _).lowByte _) rfl,
    Timer.highByte]
  simp only [Timer.lowByte, Timer.control, Timer.flagsAfterControl, Timer.flagsAfterLow, Timer.flagsAfterHigh,
    assembleReload_bytes, loadedTimer]

theorem tctlAddr_ne_freqAddr (t : TimerIx) : tctlAddr ≠ freqAddr t := by
  revert t
  decide

theorem exec_decodeWrite_freqAddr {s : State} (hr : s.Ready) {t : TimerIx} (hprog : (s.block.timerAt t).Programmed)
    (v : Byte) : exec (decodeWrite (freqAddr t) v) s = .next (s.writeTimer (freqAddr t) v t (·.dataByte v)) := by
  rw [decodeWrite_freqAddr]
  exact exec_wrFreq_programmed hr hprog v

/-- A data byte leaves the control byte alone. -/
theorem Timer.dataByte_programmed_iff (tm : Timer) (v : Byte) : (tm.dataByte v).Programmed ↔ tm.Programmed := by
  unfold Timer.dataByte
  split <;> exact Iff.rfl

theorem Block.ChannelsSame.trans {b b' b'' : Block} (h : b.ChannelsSame b') (h' : b'.ChannelsSame b'') :
    b.ChannelsSame b'' :=
  ⟨fun c => (h'.volpan c).trans (h.volpan c), fun c => (h'.wave c).trans (h.wave c)⟩

theorem Block.NoiseSame.trans {b b' b'' : Block} (h : b.NoiseSame b') (h' : b'.NoiseSame b'') : b.NoiseSame b'' :=
  ⟨h'.noiseTimer.trans h.noiseTimer, h'.noise.trans h.noise⟩

/-- The three writes of `SETFREQ` load the timer and change no other timer, channel register, noise state or delivery. -/
theorem runSteps_setFreq {t : TimerIx} {f : BitVec 16} {s : State} {rest : List Request} (hr : s.Ready)
    (hp : s.pending = HostOp.expand (.setFreq t.val f) ++ rest) :
    ∃ s', runSteps 3 s = .next s' ∧ s'.Ready ∧ s'.pending = rest ∧ s'.block.timerAt t = loadedTimer t f ∧
      s'.block.mirrorAt tctlAddr = controlByte t ∧ s'.block.mirrorAt (freqAddr t) = f.extractLsb' 8 8 ∧
      s.block.TimersSameBut t s'.block ∧ s.block.ChannelsSame s'.block ∧ s.block.NoiseSame s'.block ∧
      s'.received = s.received := by
  have hexpand : HostOp.expand (.setFreq t.val f) = [wr tctlAddr (controlByte t), wr (freqAddr t) (f.extractLsb' 0 8),
      wr (freqAddr t) (f.extractLsb' 8 8)] := dif_pos t.isLt
  rw [hexpand] at hp
  obtain ⟨s₁, hstep₁, hr₁, hp₁, hreceived₁, htimer₁, hwrite₁⟩ :=
    step_writeTimer hr hp (exec_wrTctl_controlByte (s := s.advance) hr t)
  have hprog₁ : (s₁.block.timerAt t).Programmed := by
    rw [htimer₁]
    exact modeBits_controlByte t
  obtain ⟨s₂, hstep₂, hr₂, hp₂, hreceived₂, htimer₂, hwrite₂⟩ :=
    step_writeTimer hr₁ hp₁ (exec_decodeWrite_freqAddr (s := s₁.advance) hr₁ hprog₁ _)
  have hprog₂ : (s₂.block.timerAt t).Programmed := by
    rw [htimer₂]
    exact (s₁.block.timerAt t).dataByte_programmed_iff _ |>.mpr hprog₁
  obtain ⟨s₃, hstep₃, hr₃, hp₃, hreceived₃, htimer₃, hwrite₃⟩ :=
    step_writeTimer hr₂ hp₂ (exec_decodeWrite_freqAddr (s := s₂.advance) hr₂ hprog₂ _)
  have hne := tctlAddr_ne_freqAddr t
  refine ⟨s₃, ?_, hr₃, hp₃, ?_, ?_, hwrite₃.mirrored, fun u hu => ?_, ?_, ?_, ?_⟩
  · rw [runSteps_succ hstep₁, runSteps_succ hstep₂, runSteps_succ hstep₃, runSteps_zero]
  · rw [htimer₃, htimer₂, htimer₁, Timer.load_eq]
  · rw [hwrite₃.mirror _ hne, hwrite₂.mirror _ hne, hwrite₁.mirrored]
  · rw [hwrite₃.timers u hu, hwrite₂.timers u hu, hwrite₁.timers u hu]
  · exact (hwrite₁.channels.trans hwrite₂.channels).trans hwrite₃.channels
  · exact (hwrite₁.noise.trans hwrite₂.noise).trans hwrite₃.noise
  · rw [hreceived₃, hreceived₂, hreceived₁]

theorem loadedTimer_count (t : TimerIx) (f : BitVec 16) : (loadedTimer t f).count.toNat = phaseLen f true + 1 := by
  have := phaseLen_le f true
  rw [loadedTimer, BitVec.toNat_ofNat]
  exact Nat.mod_eq_of_lt (by omega)

/-- Settles O48: the fields of the loaded timer, and the frame of the three writes. -/
theorem setFreqLoadsTimer : Obligations.SetFreqLoadsTimer := by
  intro t f s hr hp
  obtain ⟨s', hrun, -, hpending, htimer, hcontrol, hhigh, htimers, hchannels, hnoise, hreceived⟩ :=
    runSteps_setFreq (rest := []) hr (hp.trans (List.append_nil _).symm)
  refine ⟨s', hrun, hpending, ?_⟩
  rw [htimer]
  refine ⟨controlByte_toNat t, rfl, loadedTimer_count t f, ?_, rfl, rfl, rfl, ?_, ?_, htimers, hchannels, hnoise,
    hreceived⟩
  · simp [loadedTimer, BitVec.extractLsb'_toNat]
  · exact (congrArg BitVec.toNat hcontrol).trans (controlByte_toNat t)
  · have := f.isLt
    refine (congrArg BitVec.toNat hhigh).trans ?_
    simp only [BitVec.extractLsb'_toNat, Nat.shiftRight_eq_div_pow]
    omega

/-! ### The square wave of a loaded timer (R504) -/

/-- The period of reload `f`, a high phase and a low one (R503). -/
def period (f : BitVec 16) : Nat := phaseLen f true + phaseLen f false

/-- Where the phase of place `p` of the period ends. -/
def phaseEnd (f : BitVec 16) (p : Nat) : Nat := if p < phaseLen f true then phaseLen f true else period f

/-- The timer is at place `p` of the period of reload `f`, the high phase first, with the ticks to the phase's end to
count. -/
structure Timer.AtPlace (f : BitVec 16) (p : Nat) (tm : Timer) : Prop where
  running : tm.running = true
  reload : tm.reload = f
  place : p < period f
  phase : tm.out = decide (p < phaseLen f true) ∧ tm.count.toNat + p = phaseEnd f p

/-- A tick moves the timer to the next place, and from the last place of the period to the first. -/
theorem Timer.AtPlace.step {f : BitVec 16} {p : Nat} {tm : Timer} (h : tm.AtPlace f p) :
    tm.step.AtPlace f ((p + 1) % period f) := by
  obtain ⟨hrun, hreload, hplace, hout, hcount⟩ := h
  obtain ⟨-, hreload', -, -, hrun'⟩ := tm.step_keeps
  have hhigh : 0 < phaseLen f true := phaseLen_pos f true
  have hlow : phaseLen f true < period f := Nat.lt_add_of_pos_right (phaseLen_pos f false)
  refine ⟨hrun'.trans hrun, hreload'.trans hreload, Nat.mod_lt _ (by omega), ?_⟩
  unfold phaseEnd at hcount ⊢
  by_cases hp : p < phaseLen f true
  · rw [if_pos hp] at hcount
    rw [decide_eq_true hp] at hout
    rw [Nat.mod_eq_of_lt (by omega : p + 1 < period f)]
    by_cases hend : p + 1 = phaseLen f true
    · obtain ⟨hout', hcount'⟩ := Timer.step_at_one hrun (by omega)
      have hp' : ¬p + 1 < phaseLen f true := by omega
      rw [hout', hcount', hout, hreload, if_neg hp', decide_eq_false hp', hend]
      exact ⟨rfl, Nat.add_comm _ _⟩
    · obtain ⟨hout', hcount'⟩ := Timer.step_above_one hrun (by omega)
      have hp' : p + 1 < phaseLen f true := by omega
      rw [hout', hcount', hout, if_pos hp', decide_eq_true hp']
      exact ⟨rfl, by omega⟩
  · rw [if_neg hp] at hcount
    rw [decide_eq_false hp] at hout
    by_cases hend : p + 1 = period f
    · obtain ⟨hout', hcount'⟩ := Timer.step_at_one hrun (by omega)
      rw [hout', hcount', hout, hreload, hend, Nat.mod_self, if_pos hhigh, decide_eq_true hhigh]
      exact ⟨rfl, rfl⟩
    · obtain ⟨hout', hcount'⟩ := Timer.step_above_one hrun (by omega)
      have hp' : ¬p + 1 < phaseLen f true := by omega
      rw [Nat.mod_eq_of_lt (by omega), hout', hcount', hout, if_neg hp', decide_eq_false hp']
      exact ⟨rfl, by omega⟩

/-- The first tick after a load is its load cycle: the timer is then at place 0. -/
theorem loadedTimer_step (t : TimerIx) (f : BitVec 16) : (loadedTimer t f).step.AtPlace f 0 := by
  have hhigh : 0 < phaseLen f true := phaseLen_pos f true
  obtain ⟨hout, hcount⟩ := Timer.step_above_one (tm := loadedTimer t f) rfl (by rw [loadedTimer_count]; omega)
  obtain ⟨-, hreload, -, -, hrun⟩ := (loadedTimer t f).step_keeps
  refine ⟨hrun, hreload, Nat.add_pos_left hhigh _, ?_, ?_⟩
  · rw [hout, decide_eq_true hhigh]
    rfl
  · rw [hcount, loadedTimer_count, phaseEnd, if_pos hhigh]
    rfl

theorem loadedTimer_ticks (t : TimerIx) (f : BitVec 16) (n : Nat) :
    (Timer.step^[n + 1] (loadedTimer t f)).AtPlace f (n % period f) := by
  induction n with
  | zero =>
    rw [Nat.zero_mod]
    exact loadedTimer_step t f
  | succ n ih =>
    rw [Function.iterate_succ_apply', ← Nat.mod_add_mod]
    exact ih.step

/-- Settles O49: three steps load the timer, and its place in the period after the ticks is the sample's. -/
theorem squareWaveAfterLoad : Obligations.SquareWaveAfterLoad := by
  intro t f n N s hr hN hp
  obtain ⟨hhigh, hlow, -⟩ := phaseLengths f N hN
  obtain ⟨s', hload, hr', hpending, htimer, -⟩ := runSteps_setFreq hr hp
  have hticks := runSteps_ticks (n := n + 1) (rest := []) hr' (hpending.trans (List.append_nil _).symm)
  refine ⟨_, (runSteps_add hload).trans hticks, ?_⟩
  have hplace : ((s'.block.ticks s'.config (n + 1)).timerAt t).AtPlace f (n % period f) := by
    rw [Block.ticks_timerAt, htimer]
    exact loadedTimer_ticks t f n
  rw [← hhigh, ← hlow]
  exact hplace.phase.1

end Sys2Proof.Machine
end

section
/-! SUPPORT. The mirror is read by PEEK only (spec/10_state.md section 3, spec/20_memory.md section 7): every effect keeps
two states equal but in the mirror, in one operation and in a run. -/

namespace Sys2Proof.Machine

open Sys2Proof

/-! ### Blocks that are equal but in the mirror -/

/-- A block equal to `b` but in the mirror is `b` with another mirror. -/
theorem Block.EqualButMirror.exists_mirror {b b' : Block} (h : b.EqualButMirror b') : ∃ m, b' = { b with mirror := m } := by
  obtain ⟨hvolpan, hwave, htimer, ⟨hnoiseTimer, hnoise⟩, hrefused⟩ := h
  refine ⟨b'.mirror, ?_⟩
  rw [← hvolpan, ← hwave, ← htimer, ← hnoiseTimer, ← hnoise, ← hrefused]

theorem Block.EqualButMirror.timerAt {b b' : Block} (h : b.EqualButMirror b') (t : TimerIx) :
    b'.timerAt t = b.timerAt t := by
  rw [Block.timerAt, Block.timerAt]
  simp only [h.timer]

section congruence

variable {b b' : Block} (h : b.EqualButMirror b') (cfg : Config) (t : TimerIx) (c : Channel) (v : Byte)
include h

theorem Block.EqualButMirror.setMirror (a : Addr) : (b.setMirror a v).EqualButMirror (b'.setMirror a v) := by
  obtain ⟨m, rfl⟩ := h.exists_mirror
  exact ⟨rfl, rfl, rfl, ⟨rfl, rfl⟩, rfl⟩

theorem Block.EqualButMirror.raise (r : RefusalReason) : (b.raise r).EqualButMirror (b'.raise r) := by
  obtain ⟨m, rfl⟩ := h.exists_mirror
  exact ⟨rfl, rfl, rfl, ⟨rfl, rfl⟩, rfl⟩

theorem Block.EqualButMirror.modifyTimer (f : Timer → Timer) : (b.modifyTimer t f).EqualButMirror (b'.modifyTimer t f) := by
  obtain ⟨m, rfl⟩ := h.exists_mirror
  exact ⟨rfl, rfl, rfl, ⟨rfl, rfl⟩, rfl⟩

theorem Block.EqualButMirror.setVolpan : (b.setVolpan c v).EqualButMirror (b'.setVolpan c v) := by
  obtain ⟨m, rfl⟩ := h.exists_mirror
  exact ⟨rfl, rfl, rfl, ⟨rfl, rfl⟩, rfl⟩

theorem Block.EqualButMirror.setWave : (b.setWave c v).EqualButMirror (b'.setWave c v) := by
  obtain ⟨m, rfl⟩ := h.exists_mirror
  exact ⟨rfl, rfl, rfl, ⟨rfl, rfl⟩, rfl⟩

theorem Block.EqualButMirror.doReset : (b.doReset cfg).EqualButMirror (b'.doReset cfg) :=
  ⟨rfl, rfl, rfl, ⟨rfl, rfl⟩, h.refused⟩

/-- The control write reads the byte only. -/
theorem Block.EqualButMirror.ctrlWrite : (b.ctrlWrite v).EqualButMirror (b'.ctrlWrite v) := by
  unfold Block.ctrlWrite
  cases selectedTimer v with
  | none => exact h.raise _
  | some t =>
    by_cases hm : modeBits v = squareWaveMode
    · simpa only [if_pos hm] using h.modifyTimer t _
    · simpa only [if_neg hm] using h.raise _

/-- The data write reads its timer only. -/
theorem Block.EqualButMirror.dataWrite : (b.dataWrite t v).EqualButMirror (b'.dataWrite t v) := by
  by_cases hp : (b.timerAt t).Programmed
  · rw [Block.dataWrite_programmed hp, Block.dataWrite_programmed (by rwa [h.timerAt])]
    exact h.modifyTimer t _
  · rw [Block.dataWrite_unprogrammed hp, Block.dataWrite_unprogrammed (by rwa [h.timerAt])]
    exact h.raise _

theorem Block.EqualButMirror.noiseDividerStep : (b.noiseDividerStep cfg).EqualButMirror (b'.noiseDividerStep cfg) := by
  by_cases hexpired : b.noiseTimer = 1
  · rw [Block.noiseDividerStep_expiry hexpired, Block.noiseDividerStep_expiry (h.noise.noiseTimer.trans hexpired)]
    exact ⟨h.volpan, h.wave, h.timer, ⟨rfl, congrArg cfg.noiseStep h.noise.noise⟩, h.refused⟩
  · rw [Block.noiseDividerStep_counting hexpired,
      Block.noiseDividerStep_counting (by rwa [h.noise.noiseTimer])]
    exact ⟨h.volpan, h.wave, h.timer, ⟨congrArg (· - 1) h.noise.noiseTimer, h.noise.noise⟩, h.refused⟩

theorem Block.EqualButMirror.tick : (b.tick cfg).EqualButMirror (b'.tick cfg) :=
  Block.EqualButMirror.noiseDividerStep (((h.modifyTimer 0 _).modifyTimer 1 _).modifyTimer 2 _) cfg

/-- Synthesis reads no mirror (R550–R565). -/
theorem Block.EqualButMirror.outputRecord : b'.outputRecord cfg = b.outputRecord cfg := by
  obtain ⟨m, rfl⟩ := h.exists_mirror
  rfl

end congruence

/-! ### One effect on two states -/

theorem effectOf_equalButMirror (i : Instr) {s s' : State} (h : s.block.EqualButMirror s'.block)
    (hconfig : s'.config = s.config) : (effectOf i s).block.EqualButMirror (effectOf i s').block := by
  cases i with
  | wrFreq0 v => exact (h.setMirror v _).dataWrite 0 v
  | wrFreq1 v => exact (h.setMirror v _).dataWrite 1 v
  | wrFreq2 v => exact (h.setMirror v _).dataWrite 2 v
  | wrTctl v => exact (h.setMirror v _).ctrlWrite v
  | wrUnmapped0407 a v => exact h.setMirror v a
  | wrUnmapped080F a v => exact h.setMirror v a
  | wrUnmapped181F a v => exact h.setMirror v a
  | wrVolPan c v => exact (h.setMirror v _).setVolpan c v
  | wrWave c v => exact (h.setMirror v _).setWave c v
  | tick =>
    rw [effectOf_tick_block, effectOf_tick_block, hconfig]
    exact h.tick s.config
  | reset =>
    have hreset : (effectOf .reset s').block = s'.block.doReset s.config := congrArg (s'.block.doReset ·) hconfig
    rw [hreset]
    exact h.doReset s.config
  | peek a => exact h

/-- What an instruction delivers is the same in both states, if a PEEK finds the same byte in both. -/
theorem effectOf_received_same {i : Instr} {s s' : State} (h : s.block.EqualButMirror s'.block) (hhost : s.SameHost s')
    (hpeek : ∀ a, i = .peek a → s'.block.mirrorAt a = s.block.mirrorAt a) :
    (effectOf i s').received = (effectOf i s).received := by
  cases i with
  | tick =>
    change s'.received ++ [.record ((s'.block.tick s'.config).outputRecord s'.config)] =
      s.received ++ [.record ((s.block.tick s.config).outputRecord s.config)]
    rw [hhost.received, hhost.config, (h.tick s.config).outputRecord]
  | peek a =>
    change s'.received ++ [.byte (s'.block.mirrorAt a)] = s.received ++ [.byte (s.block.mirrorAt a)]
    rw [hhost.received, hpeek a rfl]
  | _ => exact hhost.received

theorem effectOf_sameHost {i : Instr} {s s' : State} (h : s.block.EqualButMirror s'.block) (hhost : s.SameHost s')
    (hpeek : ∀ a, i = .peek a → s'.block.mirrorAt a = s.block.mirrorAt a) :
    (effectOf i s).SameHost (effectOf i s') := by
  obtain ⟨hconfig, hpending, hpos⟩ := effectOf_keeps i s
  obtain ⟨hconfig', hpending', hpos'⟩ := effectOf_keeps i s'
  exact ⟨by rw [hconfig, hconfig', hhost.config], by rw [hpending, hpending', hhost.pending],
    by rw [hpos, hpos', hhost.pos], effectOf_received_same h hhost hpeek⟩

/-- Settles O56: the effect keeps the two states alike, its mark among the rest, so both complete. -/
theorem mirrorNeverReachesSynthesis : Obligations.MirrorNeverReachesSynthesis := by
  intro i s s' t hi h hhost hexec
  obtain ⟨hv, rfl, hu⟩ := exec_eq_next.mp hexec
  have hequal := effectOf_equalButMirror i h hhost.config
  exact ⟨effectOf i s', exec_eq_next.mpr ⟨by rw [hhost.config]; exact hv, rfl, hequal.refused.trans hu⟩, hequal,
    effectOf_sameHost h hhost fun a ha => absurd ha (hi a)⟩

/-! ### A run of two states that differ in one mirror byte -/

/-- The two states differ in the mirror byte at `a` at most. -/
structure State.SameButMirrorAt (a : Addr) (s s' : State) : Prop where
  block : s.block.EqualButMirror s'.block
  mirror : s.block.MirrorSameBut a s'.block
  host : s.SameHost s'

/-- An effect leaves every mirror byte as it was, writes its own, or clears all. -/
theorem effectOf_mirrorSameBut (i : Instr) {a : Addr} {s s' : State} (h : s.block.MirrorSameBut a s'.block) :
    (effectOf i s).block.MirrorSameBut a (effectOf i s').block := by
  intro a' ha
  by_cases hi : i.isWrite = true
  · rw [Block.mirrorAt_congr (effectOf_write_mirror hi s), Block.mirrorAt_congr (effectOf_write_mirror hi s'),
      Block.setMirror_mirrorAt, Block.setMirror_mirrorAt, h a' ha]
  · cases i with
    | tick =>
      rw [effectOf_tick_block, effectOf_tick_block, Block.tick_mirrorAt, Block.tick_mirrorAt]
      exact h a' ha
    | reset => exact (s'.block.doReset_mirrorAt ..).trans (s.block.doReset_mirrorAt ..).symm
    | peek x => exact h a' ha
    | _ => exact absurd rfl hi

theorem State.SameButMirrorAt.effectOf {a : Addr} {s s' : State} (h : s.SameButMirrorAt a s') {i : Instr}
    (hi : i ≠ .peek a) : (Machine.effectOf i s).SameButMirrorAt a (Machine.effectOf i s') where
  block := effectOf_equalButMirror i h.block h.host.config
  mirror := effectOf_mirrorSameBut i h.mirror
  host := effectOf_sameHost h.block h.host fun a' ha => h.mirror a' (by rintro rfl; exact hi ha)

theorem State.SameButMirrorAt.advance {a : Addr} {s s' : State} (h : s.SameButMirrorAt a s') :
    s.advance.SameButMirrorAt a s'.advance := by
  obtain ⟨hblock, hmirror, hconfig, hpending, hpos, hreceived⟩ := h
  exact ⟨hblock, hmirror, hconfig, congrArg List.tail hpending, congrArg (· + 1) hpos, hreceived⟩

/-- A step that does not PEEK the byte completes in both states and leaves them alike. -/
theorem State.SameButMirrorAt.step {a : Addr} {s s' t : State} (h : s.SameButMirrorAt a s')
    (hp : ∀ w, Request.word w ∈ s.pending → decode w ≠ .ok (.peek a)) (hstep : Machine.step s = .next t) :
    ∃ t', Machine.step s' = .next t' ∧ t.SameButMirrorAt a t' ∧ ∀ x ∈ t.pending, x ∈ s.pending := by
  have hfetch : s'.fetch = s.fetch := congrArg List.head? h.host.pending
  obtain ⟨hv, hu, ⟨w, i, hf, hd, rfl⟩ | ⟨hf, rfl⟩⟩ := step_next_cases hstep
  · have hi : i ≠ .peek a := by
      rintro rfl
      exact hp w (List.mem_of_mem_head? hf) hd
    have hsame := h.advance.effectOf hi
    refine ⟨_, ?_, hsame, ?_⟩
    · rw [step_of_decode (hfetch.trans hf) hd, exec_eq_next]
      exact ⟨by rw [State.advance_config, h.host.config]; exact hv, rfl, hsame.block.refused.trans hu⟩
    · rw [effectOf_pending]
      exact fun x hx => List.mem_of_mem_tail hx
  · refine ⟨s', ?_, h, fun x hx => hx⟩
    rw [step_of_empty (hfetch.trans hf)]
    exact perform_of_ready (by rw [h.host.config]; exact hv) (h.block.refused.trans hu)

theorem State.SameButMirrorAt.runSteps {a : Addr} {n : Nat} {s s' u : State} (h : s.SameButMirrorAt a s')
    (hp : ∀ w, Request.word w ∈ s.pending → decode w ≠ .ok (.peek a)) (hrun : Machine.runSteps n s = .next u) :
    ∃ u', Machine.runSteps n s' = .next u' ∧ u.SameButMirrorAt a u' := by
  induction n generalizing s s' with
  | zero =>
    cases hrun
    exact ⟨s', rfl, h⟩
  | succ n ih =>
    obtain ⟨t, hstep, hrest⟩ := runSteps_succ_eq_next.mp hrun
    obtain ⟨t', hstep', hsame, hmem⟩ := h.step hp hstep
    rw [runSteps_succ hstep']
    exact ih hsame (fun w hw => hp w (hmem _ hw)) hrest

/-- Settles O57: the unmapped write changes one mirror byte, which no later operation of the run reads. -/
theorem unmappedWriteIsInaudible : Obligations.UnmappedWriteIsInaudible := by
  intro i a v n s t u hi hexec hp hrun
  rw [exec_unmapped hi, perform_eq_next] at hexec
  obtain ⟨-, rfl, -⟩ := hexec
  obtain ⟨-, hbut⟩ := Block.mirrorAt_of_write (b := s.block) (a := a) (v := v) (b' := s.block.setMirror a v) rfl
  have hsame : s.SameButMirrorAt a (s.onBlock (·.setMirror a v)) :=
    ⟨s.block.equalButMirror_setMirror a v, hbut, s.sameHost_onBlock _⟩
  obtain ⟨u', hrun', hsame'⟩ := hsame.runSteps hp hrun
  exact ⟨u', hrun', hsame'.host.received⟩

end Sys2Proof.Machine
end

section
/-! SUPPORT. A host that is never refused (spec/70_reset_and_hazards.md R826): the check of a list of host operations is
the check of the requests it expands to, each request is refused exactly when the check of it fails, and so is a run. -/

namespace Sys2Proof.Machine

open Sys2Proof

/-! ### The check of a request -/

/-- The timers known after a request, or `none` where it is refused. -/
def Request.track (known : List TimerIx) : Request → Option (List TimerIx)
  | .word w => trackWord known w
  | .refuse _ => none

/-- The check of the WRITE word is the check of its write. -/
theorem trackWord_encodeWrite (known : List TimerIx) (a : Addr) (v : Byte) :
    trackWord known (encodeWrite a v) = trackWrite known a.toNat v.toNat := by
  have ha := a.isLt
  have hv := v.isLt
  have hop : (256 * a.toNat + v.toNat) / 2 ^ 13 = 0 := by omega
  have haddr : (256 * a.toNat + v.toNat) / 2 ^ 8 = a.toNat := by omega
  have hdata : (256 * a.toNat + v.toNat) % 2 ^ 8 = v.toNat := by omega
  rw [trackWord, encodeWrite_toNat, if_pos hop, haddr, hdata]

theorem trackWord_peek (known : List TimerIx) (a : Addr) : trackWord known (encode (.peek a)) = some known := by
  have ha := a.isLt
  rw [trackWord, encode_peek_toNat, if_neg (by omega), if_neg (by omega), if_neg (by omega), if_pos (by omega)]

theorem trackWord_tick (known : List TimerIx) : trackWord known (encode .tick) = some known := rfl

theorem trackWord_reset (known : List TimerIx) : trackWord known (encode .reset) = some [] := rfl

theorem trackWord_of_reserved (known : List TimerIx) {w : Hcw} (h : ReservedWord w) : trackWord known w = none := by
  unfold ReservedWord at h
  rw [trackWord, if_neg (by omega), if_neg (by omega), if_neg (by omega), if_neg (by omega)]

/-- A write outside the ports is refused (R203). -/
theorem trackWrite_out_of_range (known : List TimerIx) {a v : Nat} (h : 32 ≤ a ∨ 256 ≤ v) :
    trackWrite known a v = none := if_pos h

/-- A data byte is allowed for a timer that is known (R411). -/
theorem trackWrite_freqAddr (known : List TimerIx) (t : TimerIx) (v : Byte) :
    trackWrite known (freqAddr t).toNat v.toNat = if t ∈ known then some known else none := by
  have hv := v.isLt
  have ht : (freqAddr t).toNat = t.val := by
    revert t
    decide
  rw [trackWrite, if_neg (by omega), ht, dif_pos t.isLt]

/-- A control byte makes its timer known. -/
theorem trackWrite_controlByte (known : List TimerIx) (t : TimerIx) :
    trackWrite known tctlAddr.toNat (controlByte t).toNat = some (t :: known) := by
  match t with
  | 0 => rfl
  | 1 => rfl
  | 2 => rfl

/-- Another byte than a control byte is refused (R401). -/
theorem trackWrite_not_control (known : List TimerIx) {v : Byte} (h : ∀ t, v ≠ controlByte t) :
    trackWrite known tctlAddr.toNat v.toNat = none := by
  have hv := v.isLt
  have hne (t : TimerIx) : v.toNat ≠ (controlByte t).toNat := fun e => h t (BitVec.eq_of_toNat_eq e)
  have h0 : v.toNat ≠ 0x34 := hne 0
  have h1 : v.toNat ≠ 0x74 := hne 1
  have h2 : v.toNat ≠ 0xB4 := hne 2
  have haddr : tctlAddr.toNat = 3 := rfl
  rw [trackWrite, haddr, if_neg (by omega), dif_neg (by omega), if_pos rfl, if_neg h0, if_neg h1, if_neg h2]

/-- Above the control register every byte is allowed. -/
theorem trackWrite_above (known : List TimerIx) {a v : Nat} (ha : 4 ≤ a) (ha' : a < 32) (hv : v < 256) :
    trackWrite known a v = some known := by
  rw [trackWrite, if_neg (by omega), dif_neg (by omega), if_neg (by omega)]

/-! ### The check of an operation is the check of its expansion -/

theorem foldlM_track_expandWrite (known : List TimerIx) (a v : Nat) :
    (expandWrite a v).foldlM Request.track known = trackWrite known a v := by
  by_cases h : 32 ≤ a ∨ 256 ≤ v
  · rw [expandWrite_out_of_range h, trackWrite_out_of_range known h]
    rfl
  · obtain ⟨ha, hv⟩ := not_or.mp h
    rw [Nat.not_le] at ha hv
    rw [expandWrite_in_range ha hv, wr, List.foldlM_cons, Request.track, trackWord_encodeWrite, BitVec.toNat_ofNat,
      BitVec.toNat_ofNat, Nat.mod_eq_of_lt ha, Nat.mod_eq_of_lt hv]
    exact bind_pure _

theorem foldlM_track_expandPeek (known : List TimerIx) (a : Nat) :
    (expandPeek a).foldlM Request.track known = if a < 32 then some known else none := by
  unfold expandPeek
  split
  · rw [List.foldlM_cons, Request.track, trackWord_peek]
    rfl
  · rfl

theorem foldlM_track_expandSetFreq (known : List TimerIx) (c : Nat) (f : BitVec 16) :
    (expandSetFreq c f).foldlM Request.track known = if h : c < 3 then some (⟨c, h⟩ :: known) else none := by
  unfold expandSetFreq
  split
  · simp only [wr, List.foldlM_cons, List.foldlM_nil, Request.track, trackWord_encodeWrite, trackWrite_controlByte,
      trackWrite_freqAddr, Option.bind_eq_bind, Option.bind_some, List.mem_cons_self, if_true]
    rfl
  · rfl

theorem foldlM_track_expandChannelWrite (known : List TimerIx) {base : Nat} (hlow : 4 ≤ base) (hhigh : base + 3 < 32)
    (c v : Nat) :
    (expandChannelWrite base c v).foldlM Request.track known = if c < 4 ∧ v < 256 then some known else none := by
  by_cases hc : c < 4
  · rw [expandChannelWrite_in_range hc, foldlM_track_expandWrite]
    by_cases hv : v < 256
    · rw [if_pos ⟨hc, hv⟩, trackWrite_above known (by omega) (by omega) hv]
    · rw [if_neg (fun h => hv h.2), trackWrite_out_of_range known (.inr (by omega))]
  · rw [if_neg (fun h => hc h.1), expandChannelWrite_channel_range (by omega)]
    rfl

theorem foldlM_track_expandTicks (known : List TimerIx) (n : Nat) :
    (expandTicks n).foldlM Request.track known = some known := by
  induction n with
  | zero => rfl
  | succ n ih => exact ih

/-- A fold over the concatenation of lists is the fold of the folds over each. -/
theorem foldlM_flatMap_of_eq {α β γ : Type} {f : β → α → Option β} {g : β → γ → Option β} {e : γ → List α}
    (h : ∀ b c, (e c).foldlM f b = g b c) (cs : List γ) (b : β) : (cs.flatMap e).foldlM f b = cs.foldlM g b := by
  induction cs generalizing b with
  | nil => rfl
  | cons c cs ih =>
    rw [List.flatMap_cons, List.foldlM_append, List.foldlM_cons, h]
    exact bind_congr fun b' => ih b'

theorem foldlM_track_expand (known : List TimerIx) (op : HostOp) :
    op.expand.foldlM Request.track known = op.track known := by
  cases op with
  | word w => exact bind_pure _
  | write a v => exact foldlM_track_expandWrite known a v
  | peek a => exact foldlM_track_expandPeek known a
  | setFreq c f => exact foldlM_track_expandSetFreq known c f
  | setVolPan c b => exact foldlM_track_expandChannelWrite known (by decide) (by decide) c b
  | setWave c w => exact foldlM_track_expandChannelWrite known (by decide) (by decide) c w
  | ticks n => exact foldlM_track_expandTicks known n
  | poke a v => exact foldlM_track_expandWrite known a v
  | batch pairs => exact foldlM_flatMap_of_eq (fun k p => foldlM_track_expandWrite k p.1 p.2) pairs known

theorem avoidsRefusal_eq (known : List TimerIx) (ops : List HostOp) :
    avoidsRefusal known ops = ((ops.flatMap HostOp.expand).foldlM Request.track known).isSome := by
  rw [foldlM_flatMap_of_eq foldlM_track_expand, avoidsRefusal]

/-! ### One request of a host that knows which timers it has programmed -/

/-- The host knows exactly the programmed timers. -/
def Knows (known : List TimerIx) (b : Block) : Prop := ∀ t, t ∈ known ↔ (b.timerAt t).Programmed

/-- The check of a request agrees with what it does: it is allowed and the host's knowledge stays right, or neither. -/
def Agrees (tracked : Option (List TimerIx)) (s : State) : Prop :=
  match tracked with
  | some known => s.block.refused = none ∧ Knows known s.block
  | none => s.block.refused ≠ none

theorem Knows.reset (cfg : Config) (b : Block) : Knows [] (b.doReset cfg) := by
  intro t
  rw [Block.doReset_timerAt]
  exact iff_of_false List.not_mem_nil (by decide)

/-- An accepted control byte programs its timer and no other. -/
theorem Knows.control {known : List TimerIx} {b : Block} (h : Knows known b) (t : TimerIx) :
    Knows (t :: known) (b.modifyTimer t (·.control (controlByte t))) := by
  intro u
  by_cases hu : u = t
  · subst u
    rw [Block.modifyTimer_timerAt_same]
    exact iff_of_true List.mem_cons_self (modeBits_controlByte t)
  · rw [Block.modifyTimer_timerAt_ne _ _ _ _ hu, List.mem_cons]
    exact ⟨fun hm => (h u).mp (hm.resolve_left hu), fun hp => .inr ((h u).mpr hp)⟩

/-- A data byte programs no timer. -/
theorem Knows.data {known : List TimerIx} {b : Block} (h : Knows known b) (t : TimerIx) (v : Byte) :
    Knows known (b.modifyTimer t (·.dataByte v)) := by
  intro u
  by_cases hu : u = t
  · subst u
    rw [Block.modifyTimer_timerAt_same, Timer.dataByte_programmed_iff]
    exact h t
  · rw [Block.modifyTimer_timerAt_ne _ _ _ _ hu]
    exact h u

theorem Knows.tick {known : List TimerIx} {b : Block} (h : Knows known b) (cfg : Config) : Knows known (b.tick cfg) := by
  intro t
  rw [Block.tick_timerAt, Timer.Programmed, (b.timerAt t).step_keeps.1]
  exact h t

/-- The data write of a timer: refused exactly when the timer is not known. -/
theorem agrees_wrFreq {known : List TimerIx} {s : State} (hu : s.block.refused = none) (hk : Knows known s.block)
    (t : TimerIx) (v : Byte) :
    Agrees (if t ∈ known then some known else none)
      (s.onBlock fun b => (b.setMirror (freqAddr t) v).dataWrite t v) := by
  by_cases hm : t ∈ known
  · have hwrite := Block.dataWrite_programmed (b := s.block.setMirror (freqAddr t) v) ((hk t).mp hm) v
    rw [if_pos hm, Agrees, State.onBlock_block, hwrite]
    exact ⟨hu, Knows.data (b := s.block.setMirror (freqAddr t) v) hk t v⟩
  · have hwrite := Block.dataWrite_unprogrammed (b := s.block.setMirror (freqAddr t) v) (mt (hk t).mpr hm) v
    rw [if_neg hm, Agrees, State.onBlock_block, hwrite]
    exact Option.some_ne_none _

/-- The control write: refused exactly for a byte that is no control byte. -/
theorem agrees_wrTctl {known : List TimerIx} {s : State} (hu : s.block.refused = none) (hk : Knows known s.block)
    (v : Byte) : Agrees (trackWrite known tctlAddr.toNat v.toNat) (effectOf (.wrTctl v) s) := by
  have hblock : (effectOf (.wrTctl v) s).block = (s.block.setMirror tctlAddr v).ctrlWrite v := rfl
  obtain ⟨t, rfl, e⟩ | ⟨hv, r, e⟩ := (s.block.setMirror tctlAddr v).ctrlWrite_cases v
  · rw [trackWrite_controlByte, Agrees, hblock, e]
    exact ⟨hu, Knows.control (b := s.block.setMirror tctlAddr _) hk t⟩
  · rw [trackWrite_not_control known hv, Agrees, hblock, e]
    exact Option.some_ne_none _

/-- A register write, by the row its address is dispatched to. -/
theorem agrees_write {known : List TimerIx} {s : State} (hu : s.block.refused = none) (hk : Knows known s.block)
    (a : Addr) (v : Byte) : Agrees (trackWrite known a.toNat v.toNat) (effectOf (decodeWrite a v) s) := by
  have ha := a.isLt
  have hv := v.isLt
  have allowed (h : 4 ≤ a.toNat) : trackWrite known a.toNat v.toNat = some known := trackWrite_above known h ha hv
  obtain ⟨t, rfl, e⟩ | ⟨rfl, e⟩ | ⟨hl, -, e⟩ | ⟨hl, -, e⟩ | ⟨c, hc, e⟩ | ⟨c, hc, e⟩ | ⟨hl, e⟩ :=
    decodeWrite_cases a v <;> rw [e]
  · rw [trackWrite_freqAddr]
    match t with
    | 0 => exact agrees_wrFreq hu hk 0 v
    | 1 => exact agrees_wrFreq hu hk 1 v
    | 2 => exact agrees_wrFreq hu hk 2 v
  · exact agrees_wrTctl hu hk v
  · rw [allowed hl]
    exact ⟨hu, hk⟩
  · rw [allowed (by omega)]
    exact ⟨hu, hk⟩
  · rw [allowed (by rw [hc, volPanAddr_toNat]; omega)]
    exact ⟨hu, hk⟩
  · rw [allowed (by rw [hc, waveAddr_toNat]; omega)]
    exact ⟨hu, hk⟩
  · rw [allowed (by omega)]
    exact ⟨hu, hk⟩

/-- A word that decodes agrees with its check. -/
theorem agrees_word {known : List TimerIx} {s : State} (hu : s.block.refused = none) (hk : Knows known s.block) {w : Hcw}
    {i : Instr} (hd : decode w = .ok i) : Agrees (trackWord known w) (effectOf i s) := by
  obtain ⟨h0, e⟩ | ⟨rfl, e⟩ | ⟨rfl, e⟩ | ⟨hw, e⟩ | ⟨-, x, e⟩ := decode_cases w <;> rw [e] at hd <;> cases hd
  · rw [← encodeWrite_fields ((opField_eq_iff w _).mpr h0), trackWord_encodeWrite, addrField_encodeWrite,
      dataField_encodeWrite]
    exact agrees_write hu hk _ _
  · rw [trackWord_tick]
    exact ⟨(Block.tick_refused s.config s.block).trans hu, hk.tick s.config⟩
  · rw [trackWord_reset]
    exact ⟨hu, Knows.reset s.config s.block⟩
  · rw [hw, trackWord_peek]
    exact ⟨hu, hk⟩

/-- The step of a request completes, with the host's knowledge right after it, exactly when the check allows it. -/
theorem step_tracked {known : List TimerIx} {s : State} {r : Request} {rest : List Request} (hr : s.Ready)
    (hp : s.pending = r :: rest) (hk : Knows known s.block) :
    (∃ known' t, r.track known = some known' ∧ step s = .next t ∧ t.pending = rest ∧ Knows known' t.block) ∨
    (r.track known = none ∧ ∀ t, step s ≠ .next t) := by
  have hf := State.fetch_of_pending hp
  cases r with
  | refuse r =>
    refine .inr ⟨rfl, fun t h => ?_⟩
    rw [step_of_refuse hf, perform_raise (s := s.advance) hr] at h
    cases h
  | word w =>
    cases hd : decode w with
    | error e =>
      refine .inr ⟨trackWord_of_reserved known ((decode_error_iff w).mp ⟨e, hd⟩), fun t h => ?_⟩
      rw [step_of_reserved hf hd, perform_raise (s := s.advance) hr] at h
      cases h
    | ok i =>
      have hagrees : Agrees (Request.track known (.word w)) (effectOf i s) := agrees_word hr.2 hk hd
      cases htrack : Request.track known (.word w) with
      | some known' =>
        rw [htrack] at hagrees
        obtain ⟨hu, hk'⟩ := hagrees
        refine .inl ⟨known', (effectOf i s).advance, rfl, step_of_word hr hp hd hu, ?_, hk'⟩
        rw [State.advance_pending, effectOf_pending, hp, List.tail_cons]
      | none =>
        rw [htrack] at hagrees
        refine .inr ⟨rfl, fun t h => ?_⟩
        rw [step_of_decode hf hd, exec_eq_next, effectOf_advance] at h
        obtain ⟨-, -, hu⟩ := h
        exact hagrees hu

/-! ### The run -/

/-- Every run of the requests completes exactly when the check allows them all. -/
theorem runSteps_complete_iff {requests : List Request} {known : List TimerIx} {s : State} (hr : s.Ready)
    (hp : s.pending = requests) (hk : Knows known s.block) :
    (∀ k, ∃ t, runSteps k s = .next t) ↔ (requests.foldlM Request.track known).isSome = true := by
  induction requests generalizing known s with
  | nil => exact iff_of_true (fun k => ⟨s, runSteps_of_empty k hr hp⟩) rfl
  | cons r rest ih =>
    rw [List.foldlM_cons]
    obtain ⟨known', u, htrack, hstep, hp', hk'⟩ | ⟨htrack, hstep⟩ := step_tracked hr hp hk
    · rw [htrack]
      refine Iff.trans ⟨fun h k => ?_, fun h k => ?_⟩ (ih (step_keeps_ready hr hstep) hp' hk')
      · rw [← runSteps_succ hstep]
        exact h (k + 1)
      · cases k with
        | zero => exact ⟨s, rfl⟩
        | succ k =>
          rw [runSteps_succ hstep]
          exact h k
    · rw [htrack]
      refine iff_of_false (fun h => ?_) Bool.false_ne_true
      obtain ⟨t, ht⟩ := h 1
      obtain ⟨u, hu, -⟩ := runSteps_succ_eq_next.mp ht
      exact hstep u hu

/-- Settles O52: the list's check is the check of its requests, which decides every run of them. -/
theorem safeHostIsNeverRefused : Obligations.SafeHostIsNeverRefused := by
  intro ops s known hr hempty hknown
  have hpending : (s.submit ops).pending = ops.flatMap HostOp.expand :=
    (congrArg (· ++ ops.flatMap HostOp.expand) hempty).trans (List.nil_append _)
  have hk : Knows known (s.submit ops).block := fun t => (hknown t).trans (Timer.programmed_iff _).symm
  rw [avoidsRefusal_eq]
  exact runSteps_complete_iff (s := s.submit ops) hr hpending hk

end Sys2Proof.Machine
end
